-- ==== Sys2Proof/Word.lean ====
section
/-! DEFINITION. The words of MSSC and its plain names: the byte, the 4-bit command word, line levels, the eight lines,
the four motor channels. Rules R11, R12, R21, R110 of spec/. -/

namespace Sys2Proof

/-- A `u8` (R11): bit 0 is the least significant bit. -/
abbrev Byte := BitVec 8

/-- The command word `cmd[3:0]` (R110). -/
abbrev Cmd := BitVec 4

/-- The level of a line (R12). -/
inductive Level where
  | low
  | high
deriving DecidableEq, Repr, Inhabited

/-- The eight output lines, in the order of their numbers 0 to 7 (R21, R60). -/
inductive Line where
  | latch
  | clock
  | data
  | regEnN
  | men1
  | men2
  | men3
  | men4
deriving DecidableEq, Repr, Inhabited

/-- The four motor channels M1 to M4 (R8). -/
inductive Channel where
  | m1
  | m2
  | m3
  | m4
deriving DecidableEq, Repr, Inhabited

end Sys2Proof
end

