-- ==== Sys2Proof/Config.lean ====
section
/-! DEFINITION. What a model instance fixes (rules R9, R31, R106 to R108 of spec/) and the free values: constants with no
body, of which nothing can be proved. -/

namespace Sys2Proof

/-- The four directional commands that have a mask (R106, R109). -/
inductive Dir where
  | forward
  | backward
  | turnLeft
  | turnRight
deriving DecidableEq, Repr, Inhabited

/-- What a direction mask asks of one channel: neither of its two bits, bit A, or bit B. The pair with both bits set has
no constructor, because R106 refuses a table that contains it (log entry 9). -/
inductive Drive where
  | off
  | bitA
  | bitB
deriving DecidableEq, Repr, Inhabited

/-- One entry of `DIR_MASK`, as the OR-combination of channel bits that R104 says it is; `Machine.DirEntry.mask` is its
byte. Every byte that meets the constraint of R106 is the mask of exactly one entry. -/
structure DirEntry where
  m1 : Drive
  m2 : Drive
  m3 : Drive
  m4 : Drive
deriving DecidableEq, Repr, Inhabited

/-- The parameters of a model instance (R9). `State` carries them in the field `cfg`; no step writes them (R31). -/
structure Config where
  /-- `DIR_MASK[Forward]` (R107) -/
  forward : DirEntry
  /-- `DIR_MASK[Backward]`, OPEN (R108) -/
  backward : DirEntry
  /-- `DIR_MASK[TurnLeft]`, OPEN (R108) -/
  turnLeft : DirEntry
  /-- `DIR_MASK[TurnRight]`, OPEN (R108) -/
  turnRight : DirEntry
  /-- `LINE_ID[0..7]`, OPEN: the pin identifier of each line, by line number (R69) -/
  lineId : Vector Nat 8
  /-- `T_SETTLE`, OPEN, at least 1 (R132) -/
  tSettle : Nat
  /-- `GPIO_PRESENT`, OPEN: the level of the port `gpio_present` (R9, R35) -/
  gpioPresent : Bool
deriving DecidableEq, Repr

/-- The free bytes: the values of registers the spec calls unspecified (R36, R71). DESIGN CHOICE, log entries 4 and 5:
safe, nothing constrains them. -/
opaque Config.freeByte : Nat → Byte

/-- The OPEN entries of `DIR_MASK` of the instance that `State.reset` describes (R108). DESIGN CHOICE, log entry 6: safe,
nothing constrains them. -/
opaque Config.openEntry : Dir → DirEntry

/-- A free vector of identifiers behind `Config.freeLineId`. -/
opaque Config.rawLineId : Vector Nat 8

/-- A free count behind `Config.freeSettle`. -/
opaque Config.settleExtra : Nat

/-- The OPEN `LINE_ID` of `State.reset`'s instance: any eight distinct identifiers (R9). DESIGN CHOICE, log entry 8. -/
def Config.freeLineId : Vector Nat 8 :=
  if Config.rawLineId.toList.Nodup then Config.rawLineId else #v[0, 1, 2, 3, 4, 5, 6, 7]

/-- The OPEN `T_SETTLE` of `State.reset`'s instance: any count of at least 1 (R9). DESIGN CHOICE, log entry 8. -/
def Config.freeSettle : Nat := Config.settleExtra + 1

/-- The constraints of R9 that the types do not carry: eight distinct identifiers, a settle delay that is not zero. The
constraint of R106 on the masks holds by construction. -/
abbrev Config.wf (c : Config) : Prop := c.lineId.toList.Nodup ∧ 1 ≤ c.tSettle

end Sys2Proof
end

