-- ==== Sys2Proof/Machine/Channels.lean ====
section
/-! DEFINITION. The channel bit table `CH_BIT` and the direction masks made of it (rules R100, R101, R104, R106, R107 of
spec/). -/

namespace Sys2Proof

/-- The four channels in ascending order. -/
def Channel.all : List Channel := [.m1, .m2, .m3, .m4]

/-- Bit A of a channel (R101). -/
def Channel.bitA : Channel → Byte
  | .m1 => 0x04
  | .m2 => 0x02
  | .m3 => 0x20
  | .m4 => 0x01

/-- Bit B of a channel (R101). -/
def Channel.bitB : Channel → Byte
  | .m1 => 0x08
  | .m2 => 0x10
  | .m3 => 0x80
  | .m4 => 0x40

/-- The bits one channel contributes to a mask (R104). -/
def Drive.bits (c : Channel) : Drive → Byte
  | .off => 0x00
  | .bitA => c.bitA
  | .bitB => c.bitB

/-- What a table entry asks of a channel. -/
def DirEntry.drive (e : DirEntry) : Channel → Drive
  | .m1 => e.m1
  | .m2 => e.m2
  | .m3 => e.m3
  | .m4 => e.m4

/-- The mask of a table entry: "an OR-combination of specific channel bits" (R104). -/
def DirEntry.mask (e : DirEntry) : Byte :=
  e.m1.bits .m1 ||| e.m2.bits .m2 ||| e.m3.bits .m3 ||| e.m4.bits .m4

/-- The constraint of R106 for one channel: not both of its bits are set. -/
def maskLegalAt (m : Byte) (c : Channel) : Bool :=
  m &&& c.bitA == 0 || m &&& c.bitB == 0

/-- The constraint of R106 on a mask. -/
def maskLegal (m : Byte) : Bool := Channel.all.all (maskLegalAt m)

/-- What a mask asks of one channel; bit A is looked at first. -/
def Drive.ofMask (m : Byte) (c : Channel) : Drive :=
  if m &&& c.bitA ≠ 0 then .bitA else if m &&& c.bitB ≠ 0 then .bitB else .off

/-- The table entry of a legal mask. -/
def DirEntry.ofMask (m : Byte) : DirEntry :=
  { m1 := .ofMask m .m1, m2 := .ofMask m .m2, m3 := .ofMask m .m3, m4 := .ofMask m .m4 }

/-- The entry `M1.B | M2.B | M3.A | M4.A` of `Forward` (R107, 90_conflicts.md C2). -/
def DirEntry.forward : DirEntry := { m1 := .bitB, m2 := .bitB, m3 := .bitA, m4 := .bitA }

/-- The entry of a directional command (R106). -/
def Config.dirEntry (c : Config) : Dir → DirEntry
  | .forward => c.forward
  | .backward => c.backward
  | .turnLeft => c.turnLeft
  | .turnRight => c.turnRight

/-- `DIR_MASK[d]` (R106). -/
def Config.dirMask (c : Config) (d : Dir) : Byte := (c.dirEntry d).mask

end Sys2Proof
end

