-- ==== Sys2Proof/Machine/State.lean ====
section
/-! DEFINITION. The state of MSSC and of its target device as plain data (rules R20 to R27, R35, R36, R70 of spec/), the
reasons a step could stop, and the state after reset. -/

namespace Sys2Proof.Machine

/-- The eight line output registers (R21). -/
structure Lines where
  latch : Level
  clock : Level
  data : Level
  regEnN : Level
  men1 : Level
  men2 : Level
  men3 : Level
  men4 : Level
deriving DecidableEq, Repr

/-- The sequencer position (R27): 54 values. -/
inductive Seq where
  /-- no command in flight -/
  | ready
  /-- drive line number `k` low -/
  | init (k : Fin 8)
  /-- drive `MENc` high -/
  | arm (c : Channel)
  /-- drive `LATCH` low, load `sr` -/
  | rwLatchLo
  /-- present bit `7 - i` of the mask on `DATA` -/
  | rwData (i : Fin 8)
  /-- drive `CLOCK` high -/
  | rwClkHi (i : Fin 8)
  /-- settle delay -/
  | rwSettle (i : Fin 8)
  /-- drive `CLOCK` low -/
  | rwClkLo (i : Fin 8)
  /-- drive `LATCH` high -/
  | rwLatchHi
  /-- record `lastMask` -/
  | rwRecord
  /-- write `REG_EN_n` and `enabled` -/
  | shield (on : Bool)
  /-- drive `MENc` low -/
  | stop (c : Channel)
deriving DecidableEq, Repr

/-- An event of the trace (R14): `W(L, v)` or `T`. -/
inductive Event where
  | write (l : Line) (v : Level)
  | settle
deriving DecidableEq, Repr

/-- What the host presents at one step (R35): `rst`, and the command word where `cmd_valid` is 1. -/
structure HostInput where
  rst : Bool
  cmd : Option Cmd
deriving DecidableEq, Repr

/-- The whole state. The fields up to `devQ` are the spec's; `cfg` holds the parameters of the instance (R9), which no
step writes; `inputs` and `freeCount` are the model's own (log entries 1 and 4). -/
structure State where
  /-- `line[L]` (R21) -/
  lines : Lines
  /-- `enabled` (R22) -/
  enabled : Bool
  /-- `lastMask` (R23) -/
  lastMask : Byte
  /-- `opened` (R24) -/
  opened : Bool
  /-- `fault_hw` (R25) -/
  faultHw : Bool
  /-- `seq` (R27) -/
  seq : Seq
  /-- `mreg`, the mask in flight (R26) -/
  mreg : Byte
  /-- `sr`, the copy being shifted (R26) -/
  sr : Byte
  /-- `tr`, the events so far, oldest first (R14) -/
  trace : List Event
  /-- `S`, the shift stage of the target device (R70) -/
  devS : Byte
  /-- `Q`, the output latch of the target device (R70) -/
  devQ : Byte
  /-- the parameters of the instance (R9, R31) -/
  cfg : Config
  /-- what the host presents at the coming steps, the next one first; an empty list presents nothing -/
  inputs : List HostInput
  /-- the number of the next free value -/
  freeCount : Nat
deriving DecidableEq, Repr

/-- No step ends in a fault. R211: "A model must not add a fault outcome to any step other than the acceptance of `INIT`",
and what an accepted `INIT` can raise, `HardwareUnavailable`, is the next state that R215 describes (DEDUCED, log
entry 15). Safe: from then on only `rst` changes anything (R217). -/
inductive Fault where
deriving DecidableEq, Repr

/-- The reasons the model could refuse an instruction. -/
inductive Refusal where
  /-- Raised only by an arm of `exec` that gives its instruction no meaning; no arm does, so nobody raises it. Safe. -/
  | notModelled (mnemonic : String)
deriving DecidableEq, Repr

/-- All eight lines `Low` (R36). -/
def Lines.allLow : Lines :=
  { latch := .low, clock := .low, data := .low, regEnN := .low, men1 := .low, men2 := .low, men3 := .low, men4 := .low }

/-- The instance `State.reset` describes: `DIR_MASK[Forward] = 0x39` (R107), the OPEN parameters free values (log entries 6
and 8), `GPIO_PRESENT` true (DESIGN CHOICE, log entry 7, unsafe). -/
def resetConfig : Config :=
  { forward := .forward, backward := Config.openEntry .backward, turnLeft := Config.openEntry .turnLeft,
    turnRight := Config.openEntry .turnRight, lineId := Config.freeLineId, tSettle := Config.freeSettle,
    gpioPresent := true }

/-- The machine right after power-on reset (R36, R240), with the target device just powered up (R71). The values of `mreg`,
`sr`, `devS`, `devQ` are unspecified: free values. Nothing is presented yet. -/
def State.reset : State :=
  { lines := .allLow, enabled := false, lastMask := 0x00, opened := false, faultHw := false, seq := .ready,
    mreg := Config.freeByte 0, sr := Config.freeByte 1, trace := [], devS := Config.freeByte 2,
    devQ := Config.freeByte 3, cfg := resetConfig, inputs := [], freeCount := 4 }

end Sys2Proof.Machine
end

