-- ==== Sys2Proof/Machine/Ops.lean ====
section
/-! DEFINITION. The named operations over the lines, the target device and the host's inputs (rules R12, R72, R73, R130,
R132 of spec/), the one exception (R215) and reset (R240). -/

namespace Sys2Proof

/-- A level as a bit: `Low = 0`, `High = 1` (R12). -/
def Level.bit : Level → Bool
  | .low => false
  | .high => true

/-- A bit as a level (R12, R103). -/
def Level.ofBit : Bool → Level
  | false => .low
  | true => .high

namespace Machine

/-- `line[L]` (R13). -/
def Lines.get (ls : Lines) : Line → Level
  | .latch => ls.latch
  | .clock => ls.clock
  | .data => ls.data
  | .regEnN => ls.regEnN
  | .men1 => ls.men1
  | .men2 => ls.men2
  | .men3 => ls.men3
  | .men4 => ls.men4

/-- `line[L] <- v` (R13). -/
def Lines.set (ls : Lines) (l : Line) (v : Level) : Lines :=
  match l with
  | .latch => { ls with latch := v }
  | .clock => { ls with clock := v }
  | .data => { ls with data := v }
  | .regEnN => { ls with regEnN := v }
  | .men1 => { ls with men1 := v }
  | .men2 => { ls with men2 := v }
  | .men3 => { ls with men3 := v }
  | .men4 => { ls with men4 := v }

/-- A rising edge: a write that changes the level from `Low` to `High` (R12). -/
def rises (old new : Level) : Bool := old == .low && new == .high

/-- `u8((S << 1) | b)`: the data bit enters stage 0, every stage moves up by one, the old stage 7 is lost (R72). -/
def shiftIn (stages : Byte) (b : Bool) : Byte := (stages <<< 1) ||| (BitVec.ofBool b).zeroExtend 8

/-- The target device's shift stage after `line[L] <- v`: it moves on a rising edge of `CLOCK` only (R72). -/
def shiftStageAfter (s : State) (l : Line) (v : Level) : Byte :=
  if l = .clock ∧ rises s.lines.clock v then shiftIn s.devS s.lines.data.bit else s.devS

/-- The target device's output latch after `line[L] <- v`: it moves on a rising edge of `LATCH` only (R73). -/
def outputLatchAfter (s : State) (l : Line) (v : Level) : Byte :=
  if l = .latch ∧ rises s.lines.latch v then s.devS else s.devQ

/-- `LineWrite(L, v)` (R130), with the reaction of the target device. It cannot fail (R131). -/
def lineWrite (s : State) (l : Line) (v : Level) : State :=
  { s with
    lines := s.lines.set l v
    trace := s.trace ++ [.write l v]
    devS := shiftStageAfter s l v
    devQ := outputLatchAfter s l v }

/-- `Settle()` (R132): the event `T`, no other change. -/
def settle (s : State) : State := { s with trace := s.trace ++ [.settle] }

/-- `seq <- p` (R13). -/
def setSeq (s : State) (p : Seq) : State := { s with seq := p }

/-- What the host presents at this step; nothing where the list is empty (log entry 2). -/
def presented (s : State) : HostInput := s.inputs.headD { rst := false, cmd := none }

/-- The step's input is over: the next one is presented at the next step. -/
def popInput (s : State) : State := { s with inputs := s.inputs.tail }

/-- A command that is not accepted has no effect at all (R216, R112). -/
def notAccepted (s : State) : State := s

/-- `raise HardwareUnavailable()`: fault entry (R210, R215). Nothing else changes, nothing is saved, there is no vector.
There is no return from it (R217): only `resetEvent` clears `faultHw`. -/
def raiseHardwareUnavailable (s : State) : State := { s with faultHw := true }

/-- Reset by `rst` (R240, R36). The target device is not reset (R71, R242), and the lines go low without a rising edge.
`mreg` and `sr` are unspecified: two fresh free values (log entry 4). -/
def resetEvent (s : State) : State :=
  { s with
    lines := .allLow
    enabled := false
    lastMask := 0x00
    opened := false
    faultHw := false
    seq := .ready
    mreg := Config.freeByte s.freeCount
    sr := Config.freeByte (s.freeCount + 1)
    trace := []
    freeCount := s.freeCount + 2 }

end Machine

end Sys2Proof
end

