-- ==== Sys2Proof/Machine/Flags.lean ====
section
/-! DEFINITION. The status bits and the conditions on them: MSSC has no condition codes (R30). `ready` (R29), the conditions
of acceptance (R28(a), R213), the status the host reads (R134), the cause code (R210). -/

namespace Sys2Proof.Machine

/-- `ready` is `seq = READY` (R29). -/
def State.ready (s : State) : Bool := s.seq == .ready

/-- `INIT` is accepted in this state: checks (2) and (3) of R213. -/
def acceptsInit (s : State) : Bool := s.ready && !s.faultHw

/-- A command other than `INIT` is accepted in this state: checks (2), (3) and (5) of R213. -/
def acceptsCommand (s : State) : Bool := s.ready && !s.faultHw && s.opened

/-- What `StatusRead` returns (R134). -/
structure Status where
  enabled : Bool
  lastMask : Byte
  ready : Bool
  faultHw : Bool
deriving DecidableEq, Repr

/-- `StatusRead()` (R134): a read of the output ports, which changes nothing. -/
def State.status (s : State) : Status :=
  { enabled := s.enabled, lastMask := s.lastMask, ready := s.ready, faultHw := s.faultHw }

/-- The cause code: 1 for `HardwareUnavailable`, 0 for no fault (R210). -/
def State.causeCode (s : State) : Nat := if s.faultHw then 1 else 0

end Sys2Proof.Machine
end

