-- ==== Sys2Proof/Machine/Control.lean ====
section
/-! DEFINITION. The control commands at the moment they are presented (rules R190, R192, R194 of spec/). Their micro-steps are
the steps that follow (Machine/Sequencer.lean). -/

namespace Sys2Proof.Machine

/-- `INIT` (R190): accepted whatever `opened` is. Without a GPIO controller it takes the exception `HardwareUnavailable` and
`seq` stays `READY`; with one, `opened` is set and the sequencer starts at `INIT(0)`. -/
def execInit (s : State) : Host.Outcome State Fault Refusal :=
  if acceptsInit s then
    if s.cfg.gpioPresent then .next { s with opened := true, seq := .init 0 }
    else .next (raiseHardwareUnavailable s)
  else .next (notAccepted s)

/-- `MOTOR_STOP` (R192): accepted, the sequencer starts at `STOP(1)`. -/
def execMotorStop (s : State) : Host.Outcome State Fault Refusal :=
  .next (if acceptsCommand s then setSeq s (.stop .m1) else notAccepted s)

/-- `SET_MOTOR_SHIELD on` (R194): accepted, the sequencer goes to the micro-step `SHIELD(on)`. -/
def execSetMotorShield (on : Bool) (s : State) : Host.Outcome State Fault Refusal :=
  .next (if acceptsCommand s then setSeq s (.shield on) else notAccepted s)

end Sys2Proof.Machine
end

