-- ==== Sys2Proof/Machine/Motion.lean ====
section
/-! DEFINITION. The directional commands at the moment they are presented (rules R171 to R175 of spec/). Their micro-steps are
the steps that follow (Machine/Sequencer.lean). -/

namespace Sys2Proof.Machine

/-- `SET_d` presented: accepted, `mreg <- DIR_MASK[d]` and the sequencer starts at `ARM(1)` (R28(a), R171); else nothing. -/
def presentDirection (d : Dir) (s : State) : State :=
  if acceptsCommand s then { s with mreg := s.cfg.dirMask d, seq := .arm .m1 } else notAccepted s

/-- `SET_FORWARD` (R172). -/
def execSetForward (s : State) : Host.Outcome State Fault Refusal := .next (presentDirection .forward s)

/-- `SET_BACKWARD` (R173). -/
def execSetBackward (s : State) : Host.Outcome State Fault Refusal := .next (presentDirection .backward s)

/-- `SET_TURN_LEFT` (R174). -/
def execSetTurnLeft (s : State) : Host.Outcome State Fault Refusal := .next (presentDirection .turnLeft s)

/-- `SET_TURN_RIGHT` (R175). -/
def execSetTurnRight (s : State) : Host.Outcome State Fault Refusal := .next (presentDirection .turnRight s)

end Sys2Proof.Machine
end

