-- ==== Sys2Proof/Machine/Reserved.lean ====
section
/-! DEFINITION. The reserved words (rule R112 of spec/): "never accepted: it changes no state, writes no line, raises nothing,
and leaves `ready` as it was". One definition for each row of the opcode table. -/

namespace Sys2Proof.Machine

/-- `RESERVED`, word 0x1 (R112). -/
def execReserved1 (s : State) : Host.Outcome State Fault Refusal := .next (notAccepted s)

/-- `RESERVED`, word 0x3 (R112). -/
def execReserved3 (s : State) : Host.Outcome State Fault Refusal := .next (notAccepted s)

/-- `RESERVED`, word 0x5 (R112). -/
def execReserved5 (s : State) : Host.Outcome State Fault Refusal := .next (notAccepted s)

/-- `RESERVED`, word 0x7 (R112). -/
def execReserved7 (s : State) : Host.Outcome State Fault Refusal := .next (notAccepted s)

/-- `RESERVED`, word 0x9 (R112). -/
def execReserved9 (s : State) : Host.Outcome State Fault Refusal := .next (notAccepted s)

/-- `RESERVED`, word 0xB (R112). -/
def execReservedB (s : State) : Host.Outcome State Fault Refusal := .next (notAccepted s)

/-- `RESERVED`, words 0xE and 0xF (R112): the argument bit makes no difference. -/
def execReservedE (_arg : Bool) (s : State) : Host.Outcome State Fault Refusal := .next (notAccepted s)

end Sys2Proof.Machine
end

