-- ==== Sys2Proof/Syntax.lean ====
section
/-! DEFINITION. The instructions of MSSC: one constructor per row of spec/opcode_table.json (rules R111, R112 of spec/). -/

namespace Sys2Proof

/-- The commands of R111 and the reserved patterns of R112. A reserved word is no command, but it is a word the host can
present, and R112 says what then happens. -/
inductive Instr where
  /-- `INIT`, word 0x0 (R190) -/
  | init
  /-- `SET_FORWARD`, word 0x2 (R172) -/
  | setForward
  /-- `SET_BACKWARD`, word 0x4 (R173) -/
  | setBackward
  /-- `SET_TURN_LEFT`, word 0x6 (R174) -/
  | setTurnLeft
  /-- `SET_TURN_RIGHT`, word 0x8 (R175) -/
  | setTurnRight
  /-- `MOTOR_STOP`, word 0xA (R192) -/
  | motorStop
  /-- `SET_MOTOR_SHIELD on`, words 0xC (`on` false) and 0xD (`on` true) (R194) -/
  | setMotorShield (on : Bool)
  /-- `RESERVED`, word 0x1 (R112) -/
  | reserved1
  /-- `RESERVED`, word 0x3 (R112) -/
  | reserved3
  /-- `RESERVED`, word 0x5 (R112) -/
  | reserved5
  /-- `RESERVED`, word 0x7 (R112) -/
  | reserved7
  /-- `RESERVED`, word 0x9 (R112) -/
  | reserved9
  /-- `RESERVED`, word 0xB (R112) -/
  | reservedB
  /-- `RESERVED`, words 0xE (`arg` false) and 0xF (`arg` true): operation 7 (R112) -/
  | reservedE (arg : Bool)
deriving DecidableEq, Repr

end Sys2Proof
end

