-- ==== Sys2Proof/Machine/Dispatch.lean ====
section
/-! DEFINITION. One arm per instruction: the presentation of the instruction to MSSC (rules R28(a), R112, R213 of spec/). -/

namespace Sys2Proof.Machine

/-- The presentation of an instruction: acceptance, the exception, or no effect. -/
def exec (i : Instr) (s : State) : Host.Outcome State Fault Refusal :=
  match i with
  | .init => Sys2Proof.Machine.execInit s
  | .setForward => Sys2Proof.Machine.execSetForward s
  | .setBackward => Sys2Proof.Machine.execSetBackward s
  | .setTurnLeft => Sys2Proof.Machine.execSetTurnLeft s
  | .setTurnRight => Sys2Proof.Machine.execSetTurnRight s
  | .motorStop => Sys2Proof.Machine.execMotorStop s
  | .setMotorShield on => Sys2Proof.Machine.execSetMotorShield on s
  | .reserved1 => Sys2Proof.Machine.execReserved1 s
  | .reserved3 => Sys2Proof.Machine.execReserved3 s
  | .reserved5 => Sys2Proof.Machine.execReserved5 s
  | .reserved7 => Sys2Proof.Machine.execReserved7 s
  | .reserved9 => Sys2Proof.Machine.execReserved9 s
  | .reservedB => Sys2Proof.Machine.execReservedB s
  | .reservedE arg => Sys2Proof.Machine.execReservedE arg s

end Sys2Proof.Machine
end

