-- ==== Sys2Proof/Decode.lean ====
section
/-! DEFINITION. The command word: decoder, encoder, and the opcode table as a list of rows (rules R110 to R112 of spec/,
spec/opcode_table.json). The decoder is total on the 4-bit words: a word that is no command is a reserved constructor. -/

namespace Sys2Proof

/-- `op = cmd[3:1]` (R110). -/
def opField (w : Cmd) : Nat := (w.extractLsb' 1 3).toNat

/-- `arg = cmd[0]` (R110). -/
def argField (w : Cmd) : Bool := w.getLsbD 0

/-- The instruction of a command word (R111, R112). -/
def decode (w : Cmd) : Instr :=
  match opField w, argField w with
  | 0, false => .init
  | 0, true => .reserved1
  | 1, false => .setForward
  | 1, true => .reserved3
  | 2, false => .setBackward
  | 2, true => .reserved5
  | 3, false => .setTurnLeft
  | 3, true => .reserved7
  | 4, false => .setTurnRight
  | 4, true => .reserved9
  | 5, false => .motorStop
  | 5, true => .reservedB
  | 6, on => .setMotorShield on
  | _, arg => .reservedE arg

/-- Why bits are no command word. -/
inductive DecodeError where
  /-- a bit above `cmd[3]` is set: the command port is four bits wide (R35, R110; log entry 21) -/
  | notFourBits
deriving DecidableEq, Repr

/-- The command word in a number, refused by name where it has a bit above bit 3. -/
def cmdOfBits (w : Nat) : Except DecodeError Cmd :=
  if w < 16 then .ok (BitVec.ofNat 4 w) else .error .notFourBits

/-- Decoding of any number of bits, read as one number with bit 0 the least significant. -/
def decodeBits (w : Nat) : Except DecodeError Instr :=
  match cmdOfBits w with
  | .ok c => .ok (decode c)
  | .error e => .error e

/-- The host's question: the instruction whose bits are `w`, numbered as spec/opcode_table.json numbers them; the bits
from `nbits` on are zero. -/
def decodeTableWord (nbits w : Nat) : Option Instr :=
  match decodeBits (w % 2 ^ nbits) with
  | .ok i => some i
  | .error _ => none

/-- The command word of an instruction (R111, R112). -/
def encode : Instr → Cmd
  | .init => 0x0
  | .setForward => 0x2
  | .setBackward => 0x4
  | .setTurnLeft => 0x6
  | .setTurnRight => 0x8
  | .motorStop => 0xA
  | .setMotorShield on => if on then 0xD else 0xC
  | .reserved1 => 0x1
  | .reserved3 => 0x3
  | .reserved5 => 0x5
  | .reserved7 => 0x7
  | .reserved9 => 0x9
  | .reservedB => 0xB
  | .reservedE arg => if arg then 0xF else 0xE

/-- A row of spec/opcode_table.json: the words `w` with `w &&& mask = pattern`. -/
structure OpcodeRow where
  mnemonic : String
  pattern : Cmd
  mask : Cmd
deriving DecidableEq, Repr

/-- The fourteen rows of spec/opcode_table.json, in its order. -/
def opcodeTable : List OpcodeRow :=
  [ ⟨"INIT", 0x0, 0xF⟩, ⟨"SET_FORWARD", 0x2, 0xF⟩, ⟨"SET_BACKWARD", 0x4, 0xF⟩, ⟨"SET_TURN_LEFT", 0x6, 0xF⟩,
    ⟨"SET_TURN_RIGHT", 0x8, 0xF⟩, ⟨"MOTOR_STOP", 0xA, 0xF⟩, ⟨"SET_MOTOR_SHIELD", 0xC, 0xE⟩ ] ++
  [ ⟨"RESERVED", 0x1, 0xF⟩, ⟨"RESERVED", 0x3, 0xF⟩, ⟨"RESERVED", 0x5, 0xF⟩, ⟨"RESERVED", 0x7, 0xF⟩,
    ⟨"RESERVED", 0x9, 0xF⟩, ⟨"RESERVED", 0xB, 0xF⟩, ⟨"RESERVED", 0xE, 0xE⟩ ]

/-- Whether a word matches a row of the table. -/
def OpcodeRow.hits (r : OpcodeRow) (w : Cmd) : Bool := w &&& r.mask == r.pattern

/-- The row an instruction belongs to, by its number in the table. -/
def Instr.rowNumber : Instr → Fin 14
  | .init => 0
  | .setForward => 1
  | .setBackward => 2
  | .setTurnLeft => 3
  | .setTurnRight => 4
  | .motorStop => 5
  | .setMotorShield _ => 6
  | .reserved1 => 7
  | .reserved3 => 8
  | .reserved5 => 9
  | .reserved7 => 10
  | .reserved9 => 11
  | .reservedB => 12
  | .reservedE _ => 13

/-- Whether an instruction is one of the reserved patterns (R112). -/
def Instr.isReserved : Instr → Bool
  | .init => false
  | .setForward => false
  | .setBackward => false
  | .setTurnLeft => false
  | .setTurnRight => false
  | .motorStop => false
  | .setMotorShield _ => false
  | .reserved1 => true
  | .reserved3 => true
  | .reserved5 => true
  | .reserved7 => true
  | .reserved9 => true
  | .reservedB => true
  | .reservedE _ => true

end Sys2Proof
end

