-- ==== Sys2Proof/Machine/Fetch.lean ====
section
/-! DEFINITION. What happens in a step (rules R28, R213 of spec/): a reset, a micro-step, the presentation of a command, or
nothing; and how a command word comes to be presented. -/

namespace Sys2Proof.Machine

/-- The cases of one step. -/
inductive StepCase where
  /-- `rst` is asserted: the word, if any, is ignored (R213 (1)) -/
  | reset
  /-- a command is in flight: its micro-step executes, a presented word has no effect (R28(c), R216) -/
  | micro
  /-- `READY` and nothing presented: nothing changes (R28(b)) -/
  | idle
  /-- `READY` and a command word presented (R28(a)) -/
  | command (i : Instr)
deriving DecidableEq, Repr

/-- The case of the next step (R28, R213). -/
def stepCase (s : State) : StepCase :=
  if (presented s).rst then .reset
  else if s.seq ≠ .ready then .micro
  else
    match (presented s).cmd with
    | none => .idle
    | some w => .command (decode w)

/-- The host input that presents the word with the bits `w` for one step, `rst` low. Bits that are no command word cannot
be put on the four-bit port: then nothing is presented. -/
def inputOfBits (w : Nat) : HostInput :=
  match cmdOfBits w with
  | .ok c => { rst := false, cmd := some c }
  | .error _ => { rst := false, cmd := none }

/-- The state `s` with an input put before all others and no command in flight, so that the next step takes it. -/
def placeInput (s : State) (inp : HostInput) : State := { s with seq := .ready, inputs := inp :: s.inputs }

end Sys2Proof.Machine
end

