-- ==== Sys2Proof/Machine/Operands.lean ====
section
/-! DEFINITION. The operands of the commands and of the micro-steps: the lines by number and by channel, the level of the
register enable, the data bit of the byte being shifted (rules R21, R105, R152, R159, R190 of spec/). -/

namespace Sys2Proof.Machine

/-- The line with a number (R21), which is also the order in which `INIT` drives the lines low (R190). -/
def lineOfNumber (k : Fin 8) : Line :=
  match k with
  | 0 => .latch
  | 1 => .clock
  | 2 => .data
  | 3 => .regEnN
  | 4 => .men1
  | 5 => .men2
  | 6 => .men3
  | 7 => .men4

/-- The motor-enable line `MENc` of a channel (R16). -/
def menLine : Channel → Line
  | .m1 => .men1
  | .m2 => .men2
  | .m3 => .men3
  | .m4 => .men4

/-- The level of `REG_EN_n` for the operand `on`: "the logical inverse of `on`" (R105). -/
def shieldLevel (on : Bool) : Level := if on then .low else .high

/-- `target <- sr & 0x80` (R152, R159). -/
def topBit (v : Byte) : Byte := v &&& 0x80

/-- `High if target = 0x80 else Low` (R152). -/
def dataLevel (v : Byte) : Level := if topBit v = 0x80 then .high else .low

/-- `u8(sr << 1)`: bit 7 is discarded, bit 0 becomes 0 (R11, R159). -/
def shiftLeft (v : Byte) : Byte := v <<< 1

end Sys2Proof.Machine
end

