-- ==== Sys2Proof/Machine/Sequencer.lean ====
section
/-! DEFINITION. The micro-steps of the command in flight and the successor table of `seq` (rules R28, R151 to R158, R170,
R190, R191, R193 of spec/). -/

namespace Sys2Proof.Machine

/-- The next channel, none after M4. -/
def nextChannel : Channel → Option Channel
  | .m1 => some .m2
  | .m2 => some .m3
  | .m3 => some .m4
  | .m4 => none

/-- The successor of a sequencer position (R28(c)). `READY` has no successor of its own: it is left by an acceptance. -/
def Seq.successor : Seq → Seq
  | .ready => .ready
  | .init k => if k = 7 then .ready else .init (k + 1)
  | .arm c =>
    match nextChannel c with
    | some c' => .arm c'
    | none => .rwLatchLo
  | .rwLatchLo => .rwData 0
  | .rwData i => .rwClkHi i
  | .rwClkHi i => .rwSettle i
  | .rwSettle i => .rwClkLo i
  | .rwClkLo i => if i = 7 then .rwLatchHi else .rwData (i + 1)
  | .rwLatchHi => .rwRecord
  | .rwRecord => .shield true
  | .shield _ => .ready
  | .stop c =>
    match nextChannel c with
    | some c' => .stop c'
    | none => .shield false

/-- `INIT(k)`: drive line number `k` low (R190). -/
def doInit (k : Fin 8) (s : State) : State := lineWrite s (lineOfNumber k) .low

/-- `ARM(c)`: drive `MENc` high (R170). -/
def doArm (c : Channel) (s : State) : State := lineWrite s (menLine c) .high

/-- `RW_LATCH_LO` (R151). -/
def doLatchLo (s : State) : State := { lineWrite s .latch .low with sr := s.mreg }

/-- `RW_DATA(i)`: the top bit of `sr` goes to `DATA`, `sr` moves left (R152). -/
def doData (s : State) : State := { lineWrite s .data (dataLevel s.sr) with sr := shiftLeft s.sr }

/-- `RW_CLK_HI(i)` (R153). -/
def doClkHi (s : State) : State := lineWrite s .clock .high

/-- `RW_SETTLE(i)` (R154). -/
def doSettle (s : State) : State := settle s

/-- `RW_CLK_LO(i)` (R155). -/
def doClkLo (s : State) : State := lineWrite s .clock .low

/-- `RW_LATCH_HI` (R157). -/
def doLatchHi (s : State) : State := lineWrite s .latch .high

/-- `RW_RECORD`: `lastMask <- mreg` (R158). -/
def doRecord (s : State) : State := { s with lastMask := s.mreg }

/-- `SHIELD(on)`: the register-enable line and `enabled`, in one step (R191). -/
def doShield (on : Bool) (s : State) : State := { lineWrite s .regEnN (shieldLevel on) with enabled := on }

/-- `STOP(c)`: drive `MENc` low (R193). -/
def doStop (c : Channel) (s : State) : State := lineWrite s (menLine c) .low

/-- The action of a sequencer position (R28(c)). -/
def action : Seq → State → State
  | .ready => id
  | .init k => doInit k
  | .arm c => doArm c
  | .rwLatchLo => doLatchLo
  | .rwData _ => doData
  | .rwClkHi _ => doClkHi
  | .rwSettle _ => doSettle
  | .rwClkLo _ => doClkLo
  | .rwLatchHi => doLatchHi
  | .rwRecord => doRecord
  | .shield on => doShield on
  | .stop c => doStop c

/-- The micro-step named by `seq` executes and `seq` becomes its successor (R28(c)). -/
def microStep (s : State) : State := setSeq (action s.seq s) s.seq.successor

/-- `n` micro-steps in a row. -/
def microSteps : Nat → State → State
  | 0, s => s
  | n + 1, s => microSteps n (microStep s)

/-- The line a position writes, none for the positions that write none (R14, R28). -/
def Seq.lineWritten : Seq → Option Line
  | .ready => none
  | .init k => some (lineOfNumber k)
  | .arm c => some (menLine c)
  | .rwLatchLo => some .latch
  | .rwData _ => some .data
  | .rwClkHi _ => some .clock
  | .rwSettle _ => none
  | .rwClkLo _ => some .clock
  | .rwLatchHi => some .latch
  | .rwRecord => none
  | .shield _ => some .regEnN
  | .stop c => some (menLine c)

/-- How many micro-steps are left before `seq = READY` (R28: "Every command therefore returns to `READY` after a fixed number
of micro-steps"). -/
def Seq.remaining : Seq → Nat
  | .ready => 0
  | .init k => 8 - k.val
  | .arm .m1 => 40
  | .arm .m2 => 39
  | .arm .m3 => 38
  | .arm .m4 => 37
  | .rwLatchLo => 36
  | .rwData i => 35 - 4 * i.val
  | .rwClkHi i => 34 - 4 * i.val
  | .rwSettle i => 33 - 4 * i.val
  | .rwClkLo i => 32 - 4 * i.val
  | .rwLatchHi => 3
  | .rwRecord => 2
  | .shield _ => 1
  | .stop .m1 => 5
  | .stop .m2 => 4
  | .stop .m3 => 3
  | .stop .m4 => 2

end Sys2Proof.Machine
end

