-- ==== Sys2Proof/Machine/Step.lean ====
section
/-! DEFINITION. One step of MSSC (rules R14, R28 of spec/). It takes the host's input of this step off the list and does what
`stepCase` says. -/

namespace Sys2Proof.Machine

/-- One step. -/
def step (s : State) : Host.Outcome State Fault Refusal :=
  match stepCase s with
  | .reset => .next (resetEvent (popInput s))
  | .micro => .next (microStep (popInput s))
  | .idle => .next (popInput s)
  | .command i => exec i (popInput s)

/-- The state in which the next step runs the instruction with the bits `w` (numbered as spec/opcode_table.json numbers
them; the bits from `nbits` on are zero): the host presents it, and no command is in flight (log entry 3). -/
def State.withFetchWord (s : State) (nbits w : Nat) : State := placeInput s (inputOfBits (w % 2 ^ nbits))

end Sys2Proof.Machine
end

