-- ==== Sys2Proof/Machine/Views.lean ====
section
/-! DEFINITION. What can be seen of a state: the view (rule R32 of spec/), the target device's outputs (R74, R75), the channel
pair and the motor condition (R76, R77), the shifter's busy signal (R161), the port `line_o` (R35), cycle counts (R253).
None of it is state, and no step reads it. -/

namespace Sys2Proof.Machine

/-- The classes of R32. -/
inductive View where
  | idle
  | transmitting
  | running
  | other
deriving DecidableEq, Repr

/-- `MENc` (R16). -/
def State.men (s : State) (c : Channel) : Level := s.lines.get (menLine c)

/-- All four motor enables have the level `v`. -/
def State.menAll (s : State) (v : Level) : Bool := Channel.all.all (fun c => s.men c == v)

/-- `seq` is an `RW_*` position: SIPO_SHIFTER is busy (R161). -/
def Seq.shifterBusy : Seq → Bool
  | .ready => false
  | .init _ => false
  | .arm _ => false
  | .rwLatchLo => true
  | .rwData _ => true
  | .rwClkHi _ => true
  | .rwSettle _ => true
  | .rwClkLo _ => true
  | .rwLatchHi => true
  | .rwRecord => true
  | .shield _ => false
  | .stop _ => false

/-- `seq` is `ARM(c)` or any `RW_*` position (R32). -/
def Seq.transmitting : Seq → Bool
  | .arm _ => true
  | p => p.shifterBusy

/-- The function `view` of R32. -/
def State.view (s : State) : View :=
  if s.seq.transmitting then .transmitting
  else if s.ready && !s.enabled && s.menAll .low then .idle
  else if s.ready && s.enabled && s.menAll .high then .running
  else .other

/-- `OUT[7:0]`: `Q` while `REG_EN_n` is `Low`; not driven (`Z`, here none) while it is `High` (R74). -/
def State.out (s : State) : Option Byte := if s.lines.regEnN = .low then some s.devQ else none

/-- The channel pair `(a, b)` of a register value (R76). -/
def channelPair (q : Byte) (c : Channel) : Bool × Bool := (q &&& c.bitA != 0, q &&& c.bitB != 0)

/-- The motor conditions the spec names (R77). -/
inductive MotorCondition where
  | off
  | coast
  | dirA
  | dirB
deriving DecidableEq, Repr

/-- The motor condition of a channel (R77). `none` is "not defined by the source": R77 forbids a model to give the two
undefined rows a value (log entry 16). -/
def State.motorCondition (s : State) (c : Channel) : Option MotorCondition :=
  match s.men c, s.lines.regEnN with
  | .low, _ => some .off
  | .high, .high => none
  | .high, .low =>
    match channelPair s.devQ c with
    | (false, false) => some .coast
    | (true, false) => some .dirA
    | (false, true) => some .dirB
    | (true, true) => none

/-- The port `line_o[7:0]`, bit `k` the line with number `k` (R21, R35). -/
def State.lineO (s : State) : Byte :=
  BitVec.ofBoolListLE
    [s.lines.latch.bit, s.lines.clock.bit, s.lines.data.bit, s.lines.regEnN.bit,
     s.lines.men1.bit, s.lines.men2.bit, s.lines.men3.bit, s.lines.men4.bit]

/-- The cycles of `clk` a micro-step lasts (R35, R253): one, but `T_SETTLE` for the settle delay. -/
def Seq.cycles (tSettle : Nat) : Seq → Nat
  | .rwSettle _ => tSettle
  | .ready => 1
  | .init _ => 1
  | .arm _ => 1
  | .rwLatchLo => 1
  | .rwData _ => 1
  | .rwClkHi _ => 1
  | .rwClkLo _ => 1
  | .rwLatchHi => 1
  | .rwRecord => 1
  | .shield _ => 1
  | .stop _ => 1

/-- The cycles of `n` micro-steps from a sequencer position on. -/
def Seq.cyclesOf (tSettle : Nat) : Nat → Seq → Nat
  | 0, _ => 0
  | n + 1, p => p.cycles tSettle + Seq.cyclesOf tSettle n p.successor

end Sys2Proof.Machine
end

