-- ==== Sys2Proof/Machine/Outcomes.lean ====
section
/-! DEFINITION. What a whole command does, as the spec tables it: its trace and its end state (rules R102, R171, R190, R191,
R192 of spec/), written without the sequencer. Statements compare the steps of the machine with them. -/

namespace Sys2Proof.Machine

/-- One bit cell of a frame: data, rising clock edge, delay, falling clock edge (R102). -/
def bitCell (v : Level) : List Event :=
  [.write .data v, .write .clock .high, .settle, .write .clock .low]

/-- The level of bit `j` of a mask. -/
def bitLevel (m : Byte) (j : Nat) : Level := Level.ofBit (m.getLsbD j)

/-- The trace of one frame (R102): `d_i` is bit `7 - i` of the mask. -/
def frameTrace (m : Byte) : List Event :=
  [.write .latch .low] ++ [7, 6, 5, 4, 3, 2, 1, 0].flatMap (fun j => bitCell (bitLevel m j)) ++ [.write .latch .high]

/-- One write of each motor enable, in ascending channel order (R170, R193). -/
def enableWrites (v : Level) : List Event := Channel.all.map (fun c => .write (menLine c) v)

/-- The trace of a directional command (R171). -/
def directionTrace (m : Byte) : List Event := enableWrites .high ++ frameTrace m ++ [.write .regEnN .low]

/-- The trace of `INIT` (R190). -/
def initTrace : List Event :=
  [.latch, .clock, .data, .regEnN, .men1, .men2, .men3, .men4].map (fun l => .write l .low)

/-- The trace of `MOTOR_STOP` (R192). -/
def stopTrace : List Event := enableWrites .low ++ [.write .regEnN .high]

/-- The state after a directional command with mask `m`, accepted in `s` (R171). -/
def directionResult (m : Byte) (s : State) : State :=
  { s with
    lines := { latch := .high, clock := .low, data := bitLevel m 0, regEnN := .low,
               men1 := .high, men2 := .high, men3 := .high, men4 := .high }
    enabled := true
    lastMask := m
    seq := .ready
    mreg := m
    sr := 0x00
    trace := s.trace ++ directionTrace m
    devS := m
    devQ := m }

/-- The state after an `INIT` accepted in `s` with a GPIO controller present (R190). -/
def initResult (s : State) : State :=
  { s with lines := .allLow, opened := true, seq := .ready, trace := s.trace ++ initTrace }

/-- The state after a `MOTOR_STOP` accepted in `s` (R192). -/
def stopResult (s : State) : State :=
  { s with
    lines := { s.lines with regEnN := .high, men1 := .low, men2 := .low, men3 := .low, men4 := .low }
    enabled := false
    seq := .ready
    trace := s.trace ++ stopTrace }

/-- The state after a `SET_MOTOR_SHIELD on` accepted in `s` (R194, R191). -/
def shieldResult (on : Bool) (s : State) : State :=
  { s with
    lines := { s.lines with regEnN := shieldLevel on }
    enabled := on
    seq := .ready
    trace := s.trace ++ [.write .regEnN (shieldLevel on)] }

/-- A frame has been latched since the last reset: the trace holds a `W(LATCH, High)`, which only `RW_LATCH_HI` makes. -/
def State.latched (s : State) : Bool := s.trace.contains (.write .latch .high)

/-- The state with its inputs taken away: what the machine itself holds. -/
def State.withoutInputs (s : State) : State := { s with inputs := [] }

end Sys2Proof.Machine
end

