-- ==== Sys2Proof/WellFormed.lean ====
section
/-! DEFINITION. What is well formed: an instruction (every one is, by its types), and a model instance, whose parameters
R9 and R106 of spec/ constrain: "a model instance whose table breaks the constraint is refused". -/

namespace Sys2Proof

/-- Every term of `Instr` is well formed: an operand is one bit (R110), and the words that break the rule "`arg` must be 0
for every other operation" are constructors of their own, the reserved ones (R112). -/
def Instr.wf : Instr → Bool
  | .init => true
  | .setForward => true
  | .setBackward => true
  | .setTurnLeft => true
  | .setTurnRight => true
  | .motorStop => true
  | .setMotorShield _ => true
  | .reserved1 => true
  | .reserved3 => true
  | .reserved5 => true
  | .reserved7 => true
  | .reserved9 => true
  | .reservedB => true
  | .reservedE _ => true

/-- The parameters of an instance as R9 lists them, before they are checked: masks are plain bytes. -/
structure RawConfig where
  forward : Byte
  backward : Byte
  turnLeft : Byte
  turnRight : Byte
  lineId : Vector Nat 8
  tSettle : Nat
  gpioPresent : Bool
deriving DecidableEq, Repr

/-- `DIR_MASK[d]` of an unchecked instance. -/
def RawConfig.dirMask (r : RawConfig) : Dir → Byte
  | .forward => r.forward
  | .backward => r.backward
  | .turnLeft => r.turnLeft
  | .turnRight => r.turnRight

/-- Why a model instance is refused. -/
inductive ConfigError where
  /-- the mask of `d` sets both bits of a channel (R106) -/
  | bothBits (d : Dir)
  /-- two lines have the same identifier (R9: "eight distinct identifiers") -/
  | lineIdRepeated
  /-- `T_SETTLE = 0` (R132: "`T_SETTLE = 0` is not allowed") -/
  | settleZero
deriving DecidableEq, Repr

/-- The checked instance, or why it is refused (R9, R106, R132). -/
def Config.check (r : RawConfig) : Except ConfigError Config :=
  if maskLegal r.forward = false then .error (.bothBits .forward)
  else if maskLegal r.backward = false then .error (.bothBits .backward)
  else if maskLegal r.turnLeft = false then .error (.bothBits .turnLeft)
  else if maskLegal r.turnRight = false then .error (.bothBits .turnRight)
  else if ¬ r.lineId.toList.Nodup then .error .lineIdRepeated
  else if r.tSettle = 0 then .error .settleZero
  else .ok
    { forward := .ofMask r.forward, backward := .ofMask r.backward, turnLeft := .ofMask r.turnLeft,
      turnRight := .ofMask r.turnRight, lineId := r.lineId, tSettle := r.tSettle, gpioPresent := r.gpioPresent }

end Sys2Proof
end

