-- ==== Sys2Proof/Safety.lean ====
section
/-! DEFINITION. The terms claims are stated in: the invariant of the machine, the host that issues a list of commands, and the
end of a run (rules R19, R22, R34, R79, R113, R226 of spec/). -/

namespace Sys2Proof.Machine

/-- `n` steps of the machine, stopping at the first fault or refusal: the host's own `Host.Core.run`. -/
def run (n : Nat) (s : State) : Host.Outcome State Fault Refusal := Host.Core.run Sys2Proof.core n s

/-- The host's input of the next step does not assert `rst`; a word may be presented. -/
def NoResetNow (s : State) : Prop := (presented s).rst = false

/-- No input of the next `n` steps asserts `rst`; words may be presented. -/
def NoReset (n : Nat) (s : State) : Prop := ∀ inp ∈ s.inputs.take n, inp.rst = false

/-- `CLOCK` is high at exactly the positions between the rising and the falling edge of a clock pulse. -/
def Seq.clockHigh : Seq → Bool
  | .rwSettle _ => true
  | .rwClkLo _ => true
  | .ready => false
  | .init _ => false
  | .arm _ => false
  | .rwLatchLo => false
  | .rwData _ => false
  | .rwClkHi _ => false
  | .rwLatchHi => false
  | .rwRecord => false
  | .shield _ => false
  | .stop _ => false

/-- The positions of a frame after `LATCH` went low and before it goes high. -/
def Seq.inFrame : Seq → Bool
  | .rwData _ => true
  | .rwClkHi _ => true
  | .rwSettle _ => true
  | .rwClkLo _ => true
  | .rwLatchHi => true
  | .ready => false
  | .init _ => false
  | .arm _ => false
  | .rwLatchLo => false
  | .rwRecord => false
  | .shield _ => false
  | .stop _ => false

/-- The low `n` bits of the shift stage are the high `n` bits of the mask: `n` clock edges of the frame are over (R78). -/
def shifted (n : Nat) (s : State) : Prop := s.devS <<< (8 - n) = s.mreg >>> (8 - n) <<< (8 - n)

/-- What the shifter and the target device hold at each position of a frame (R152, R78). -/
def ShifterAt (s : State) : Seq → Prop
  | .rwData i => s.sr = s.mreg <<< i.val ∧ shifted i.val s
  | .rwClkHi i => s.sr = s.mreg <<< (i.val + 1) ∧ shifted i.val s ∧ s.lines.data = bitLevel s.mreg (7 - i.val)
  | .rwSettle i => s.sr = s.mreg <<< (i.val + 1) ∧ shifted (i.val + 1) s ∧ s.lines.data = bitLevel s.mreg (7 - i.val)
  | .rwClkLo i => s.sr = s.mreg <<< (i.val + 1) ∧ shifted (i.val + 1) s ∧ s.lines.data = bitLevel s.mreg (7 - i.val)
  | .rwLatchHi => s.sr = 0x00 ∧ s.devS = s.mreg ∧ s.lines.data = bitLevel s.mreg 0
  | .rwRecord => s.sr = 0x00 ∧ s.devS = s.mreg ∧ s.devQ = s.mreg ∧ s.lines.data = bitLevel s.mreg 0
  | .ready => True
  | .init _ => True
  | .arm _ => True
  | .rwLatchLo => True
  | .shield _ => True
  | .stop _ => True

/-- The motor enables at each position: those already written have the level written, and all four are equal wherever no
command is in the middle of writing them (R34(d), R170, R193). -/
def EnablesAt (s : State) : Seq → Prop
  | .arm .m1 => True
  | .arm .m2 => s.lines.men1 = .high
  | .arm .m3 => s.lines.men1 = .high ∧ s.lines.men2 = .high
  | .arm .m4 => s.lines.men1 = .high ∧ s.lines.men2 = .high ∧ s.lines.men3 = .high
  | .stop .m1 => True
  | .stop .m2 => s.lines.men1 = .low
  | .stop .m3 => s.lines.men1 = .low ∧ s.lines.men2 = .low
  | .stop .m4 => s.lines.men1 = .low ∧ s.lines.men2 = .low ∧ s.lines.men3 = .low
  | .init k => ∀ j : Fin 8, j < k → s.lines.get (lineOfNumber j) = .low
  | .ready => s.menAll s.lines.men1
  | .shield _ => s.menAll s.lines.men1
  | .rwLatchLo => s.menAll .high
  | .rwData _ => s.menAll .high
  | .rwClkHi _ => s.menAll .high
  | .rwSettle _ => s.menAll .high
  | .rwClkLo _ => s.menAll .high
  | .rwLatchHi => s.menAll .high
  | .rwRecord => s.menAll .high

/-- The mask is `DIR_MASK` of some direction. -/
def HasMask (c : Config) (m : Byte) : Prop := ∃ d, m = c.dirMask d

/-- The invariant of MSSC and its target device. It rules out the states no run reaches. -/
structure State.Inv (s : State) : Prop where
  /-- the instance is one that R9 allows -/
  cfgOk : s.cfg.wf
  /-- `opened` needs a GPIO controller (R24) -/
  openedPresent : s.opened = true → s.cfg.gpioPresent = true
  /-- the fault needs its absence (R210) -/
  faultAbsent : s.faultHw = true → s.cfg.gpioPresent = false
  /-- a command is in flight only after a successful `INIT` (R28) -/
  busyOpened : s.seq ≠ .ready → s.opened = true
  /-- until a successful `INIT` nothing but `faultHw` differs from reset (R215, R216) -/
  untouched : s.opened = false →
    s.lines = .allLow ∧ s.enabled = false ∧ s.lastMask = 0x00 ∧ s.trace = []
  /-- `CLOCK` is low but during a clock pulse (R34(a)) -/
  clock : s.lines.clock = .high ↔ s.seq.clockHigh = true
  /-- latch discipline (R160) -/
  latchLow : s.seq.inFrame = true → s.lines.latch = .low
  /-- `LATCH` is high when the frame is being recorded (R157) -/
  latchHigh : s.seq = .rwRecord → s.lines.latch = .high
  /-- the motor enables (R34(d)) -/
  enables : EnablesAt s s.seq
  /-- the frame in flight (R78) -/
  shifter : ShifterAt s s.seq
  /-- the mask in flight is a table entry (R26) -/
  mregMask : s.seq.transmitting = true → HasMask s.cfg s.mreg
  /-- `lastMask` is a table entry once a frame has been latched, 0 before (R23) -/
  lastMaskKnown : (s.latched = true ∧ HasMask s.cfg s.lastMask) ∨ (s.lastMask = 0x00 ∧ (s.latched = true → s.seq = .rwRecord))
  /-- between frames the device holds the last mask (R79) -/
  deviceHolds : s.latched = true → s.seq.shifterBusy = false → s.devS = s.lastMask ∧ s.devQ = s.lastMask
  /-- during a frame its outputs keep the last mask (R66(b)) -/
  outputHolds : s.latched = true → s.seq.shifterBusy = true → s.seq ≠ .rwRecord → s.devQ = s.lastMask
  /-- a `LATCH` that is high was driven high by a frame (R34(b)) -/
  latchHighLatched : s.lines.latch = .high → s.latched = true
  /-- between frames, `DATA` has the level of bit 0 of the last mask, and is low once `INIT` has driven it low
  (R34(c)); the positions of `INIT` itself are left to `enables` -/
  dataAtRest : s.seq.shifterBusy = false ∨ s.seq = .rwLatchLo → (∀ k, s.seq ≠ .init k) →
    s.lines.data = if s.lines.latch = .high then bitLevel s.lastMask 0 else .low
  /-- `enabled` and `REG_EN_n` agree from the first `SHIELD` micro-step until the next `INIT` (R22), said of the states
  whose `LATCH` is high -/
  shieldAgrees : s.lines.latch = .high → s.seq ≠ .rwRecord → (∀ on, s.seq ≠ .shield on) →
    (s.enabled = true ↔ s.lines.regEnN = .low)

/-- A state a power-on or an `rst` can leave (R36, R240): the values R36 gives, anything where it says "unspecified", any
instance that R9 allows, any inputs to come. -/
def State.AfterReset (s : State) : Prop :=
  s.lines = .allLow ∧ s.enabled = false ∧ s.lastMask = 0x00 ∧ s.opened = false ∧ s.faultHw = false ∧ s.seq = .ready ∧
    s.trace = [] ∧ s.cfg.wf

/-- The commands that pair an instruction with the direction whose mask it sends (R172 to R175). -/
def directionalCommands : List (Instr × Dir) :=
  [(.setForward, .forward), (.setBackward, .backward), (.setTurnLeft, .turnLeft), (.setTurnRight, .turnRight)]

/-- The motor condition a table entry asks of a channel, once its mask is on driven outputs (R76, R77). -/
def conditionOf : Drive → MotorCondition
  | .off => .coast
  | .bitA => .dirA
  | .bitB => .dirB

/-- A host with the handshake (R113, R226, 95_test_vectors.md part 3): it holds the first command of its list until it is
accepted, then issues the next one. -/
structure HostRun where
  /-- the commands not yet accepted -/
  pending : List Cmd
  /-- the machine -/
  machine : State
deriving DecidableEq, Repr

/-- The word is accepted in this state (R28(a)): `INIT`, or another command once opened; never a reserved word. An `INIT`
that raises `HardwareUnavailable` counts as accepted, as R210 says. -/
def accepts (s : State) (w : Cmd) : Bool :=
  match decode w with
  | .init => acceptsInit s
  | i => !i.isReserved && acceptsCommand s

/-- One step of the host and the machine together: the first pending word, if any, is presented; it leaves the list when
it is accepted. The steps of MSSC do not stop, so the result is a run again. -/
def HostRun.step (r : HostRun) : HostRun :=
  match Sys2Proof.Machine.step { r.machine with inputs := [{ rst := false, cmd := r.pending.head? }] } with
  | .next t =>
    { pending :=
        match r.pending with
        | [] => []
        | w :: rest => if accepts r.machine w then rest else w :: rest
      machine := t }
  | .fault _ => r
  | .refused _ => r

/-- `n` steps of the host and the machine. -/
def HostRun.steps : Nat → HostRun → HostRun
  | 0, r => r
  | n + 1, r => HostRun.steps n r.step

/-- The run has ended well (R19): every command accepted, `READY`, no fault. -/
def HostRun.ended (r : HostRun) : Bool := r.pending.isEmpty && r.machine.ready && !r.machine.faultHw

/-- The run has ended in the fault (R19, R215). -/
def HostRun.faulted (r : HostRun) : Bool := r.machine.faultHw

end Sys2Proof.Machine
end

