-- ==== Sys2Proof/Certificates/Slice0/Obligations.lean ====
section
/-! DEFINITION. The statements for the provers. Each docstring names the rules of spec/ it rests on. -/

open Sys2Proof Sys2Proof.Machine

/-! Encoding -/

/-- R111, R112: the sixteen words, written out bit by bit. The numbers are the spec's own decision D3. -/
def Obligations.WordsDecodeAsTabled : Prop :=
  decode 0b0000 = .init ∧ decode 0b0010 = .setForward ∧ decode 0b0100 = .setBackward ∧ decode 0b0110 = .setTurnLeft ∧
  decode 0b1000 = .setTurnRight ∧ decode 0b1010 = .motorStop ∧ decode 0b1100 = .setMotorShield false ∧
  decode 0b1101 = .setMotorShield true ∧
  decode 0b0001 = .reserved1 ∧ decode 0b0011 = .reserved3 ∧ decode 0b0101 = .reserved5 ∧ decode 0b0111 = .reserved7 ∧
  decode 0b1001 = .reserved9 ∧ decode 0b1011 = .reservedB ∧ decode 0b1110 = .reservedE false ∧
  decode 0b1111 = .reservedE true

/-- R110 to R112, the encoding round trip of every instruction in both directions, through the numbering of
spec/opcode_table.json. That a number with a bit above bit 3 is no command word is the model's choice (log entry 21). -/
def Obligations.DecodeAndEncodeAgree : Prop :=
  (∀ (i : Instr) (nbits : Nat), 4 ≤ nbits → decodeTableWord nbits (encode i).toNat = some i) ∧
  (∀ (nbits w : Nat) (i : Instr), decodeTableWord nbits w = some i → (encode i).toNat = w % 2 ^ nbits) ∧
  (∀ nbits w : Nat, decodeTableWord nbits w = none ↔ 16 ≤ w % 2 ^ nbits)

/-- R112 and spec/opcode_table.json: a word matches exactly one row of the table, the row of the instruction it decodes
to. The numbers are the spec's own decision D3. -/
def Obligations.EveryWordMatchesOneRow : Prop :=
  ∀ (w : Cmd) (n : Fin 14), (opcodeTable[n.val]?).any (fun r => r.hits w) = true ↔ (decode w).rowNumber = n

/-- R110, R105: `arg` is the operand `on`, and the register enable takes its logical inverse. That the operand is bit 0 of
the word is the spec's own decision D3. -/
def Obligations.ShieldOperandIsInverted : Prop :=
  (∀ (w : Cmd) (on : Bool), decode w = .setMotorShield on → on = w.getLsbD 0) ∧
  shieldLevel true = .low ∧ shieldLevel false = .high

/-! The step -/

/-- R14, R28(a): in `READY`, with `rst` low, a step is the presentation of the decoded word; around it the step only takes
the host's input off the list. `withFetchWord` places an instruction so that the next step presents it (log entry 3). -/
def Obligations.StepPresentsTheDecodedCommand : Prop :=
  (∀ (s : State) (w : Cmd) (rest : List HostInput), s.seq = .ready → s.inputs = ⟨false, some w⟩ :: rest →
    step s = exec (decode w) { s with inputs := rest }) ∧
  (∀ (s : State) (i : Instr) (nbits : Nat), 4 ≤ nbits →
    step (s.withFetchWord nbits (encode i).toNat) = exec i { s with seq := .ready })

/-- R28(b), (c), R213 (2), R216: in `READY` with nothing presented nothing changes, and while a command is in flight a step
is its micro-step, whatever word is presented. That a word presented then has no effect is the spec's own decision D5 (log
entry 10); that an input list that has run out presents nothing is the model's choice (log entry 2). -/
def Obligations.StepsThatPresentNothing : Prop :=
  (∀ s : State, s.seq = .ready → presented s = ⟨false, none⟩ → step s = .next { s with inputs := s.inputs.tail }) ∧
  (∀ (s : State) (word : Option Cmd) (rest : List HostInput), s.seq ≠ .ready →
    step { s with inputs := ⟨false, word⟩ :: rest } = .next (microStep { s with inputs := rest }))

/-- R213 (1), R240, R36, R242: `rst` wins over everything; the values R36 gives, the target device and the parameters
unchanged. `mreg` and `sr` are unspecified; the trace and the inputs are the model's own bookkeeping. Reset values before
any `INIT`, and `rst` itself, are the spec's own decisions D7 and D16 (log entry 12). -/
def Obligations.ResetWinsOverEverything : Prop :=
  ∀ s : State, (presented s).rst = true →
    ∃ t, step s = .next t ∧ t.lines = .allLow ∧ t.enabled = false ∧ t.lastMask = 0x00 ∧ t.opened = false ∧
      t.faultHw = false ∧ t.seq = .ready ∧ t.trace = [] ∧ t.devS = s.devS ∧ t.devQ = s.devQ ∧ t.cfg = s.cfg ∧
      t.inputs = s.inputs.tail

/-- R36, R134, S8 of 95_test_vectors.md: the values the spec gives at reset, and what the host then reads. The spec's own
decisions among them are D1, D6, D7, D14 (log entry 12). -/
def Obligations.ResetValues : Prop :=
  State.reset.lines = .allLow ∧ State.reset.enabled = false ∧ State.reset.lastMask = 0x00 ∧
  State.reset.opened = false ∧ State.reset.faultHw = false ∧ State.reset.seq = .ready ∧ State.reset.trace = [] ∧
  State.reset.status = { enabled := false, lastMask := 0x00, ready := true, faultHw := false } ∧
  State.reset.causeCode = 0

/-- Every step and every presentation answers a next state. For every step but the acceptance of `INIT` R211 forbids a fault
outcome, and R131 gives none to a line write. Of an `INIT` accepted without a GPIO controller R215 gives the whole state
after it, and that this exception is a next state is the model's choice (log entry 15, DEDUCED from R215). -/
def Obligations.NothingStopsTheMachine : Prop :=
  ∀ s : State, (∃ t, step s = .next t) ∧ ∀ i : Instr, ∃ t, exec i s = .next t

/-! The commands, from presentation to `READY` -/

/-- R190: an accepted `INIT` with a GPIO controller, whatever words the host presents meanwhile: `opened`, then the eight
lines low in eight steps. Everything else is unchanged: `enabled`, `lastMask`, `S` and `Q` among it. The order of the
writes is the spec's own decision D9 (log entry 11), and that `enabled` and `lastMask` stay is D8 (log entry 13). -/
def Obligations.InitRunsToItsEnd : Prop :=
  ∀ s : State, s.seq = .ready → s.faultHw = false → s.cfg.gpioPresent = true → NoReset 8 s →
    ∃ t, exec .init s = .next t ∧ t = { s with opened := true, seq := .init 0 } ∧
      run 8 t = .next { initResult s with inputs := s.inputs.drop 8 }

/-- R210, R215: an accepted `INIT` without a GPIO controller takes the exception `HardwareUnavailable`, code 1, and
changes nothing but `fault_hw`. The fault bit and its code are the spec's own decision D14, and that the exception is a
next state is the model's choice (log entry 15, DEDUCED from R215). -/
def Obligations.InitWithoutControllerFaults : Prop :=
  ∀ s : State, s.seq = .ready → s.faultHw = false → s.cfg.gpioPresent = false →
    exec .init s = .next { s with faultHw := true } ∧ ({ s with faultHw := true } : State).causeCode = 1

/-- R171 to R175: `SET_FORWARD`, `SET_BACKWARD`, `SET_TURN_LEFT`, `SET_TURN_RIGHT` accepted, whatever words the host
presents meanwhile: acceptance loads `mreg`, and after 40 more steps the state is the one R171 tables, with the trace R171
gives. That `CLOCK` is low on entry (R150) holds wherever `State.Inv` does. The order of the enable writes is the spec's
own decision D9 (log entry 11). -/
def Obligations.DirectionalCommandsRunToTheirEnd : Prop :=
  ∀ (i : Instr) (d : Dir) (s : State), (i, d) ∈ directionalCommands →
    s.seq = .ready → s.faultHw = false → s.opened = true → s.lines.clock = .low → NoReset 40 s →
    ∃ t, exec i s = .next t ∧ t = { s with mreg := s.cfg.dirMask d, seq := .arm .m1 } ∧
      run 40 t = .next { directionResult (s.cfg.dirMask d) s with inputs := s.inputs.drop 40 }

/-- R192: an accepted `MOTOR_STOP`, whatever words the host presents meanwhile: after five more steps the motor enables
are low, `REG_EN_n` high, `enabled` false, and everything else as before. The order of the enable writes is the spec's own
decision D9 (log entry 11). -/
def Obligations.MotorStopRunsToItsEnd : Prop :=
  ∀ s : State, s.seq = .ready → s.faultHw = false → s.opened = true → NoReset 5 s →
    ∃ t, exec .motorStop s = .next t ∧ t = { s with seq := .stop .m1 } ∧
      run 5 t = .next { stopResult s with inputs := s.inputs.drop 5 }

/-- R194, R191: an accepted `SET_MOTOR_SHIELD on`: after one more step `REG_EN_n` has the inverse of `on`, `enabled` is `on`,
and everything else is as before. -/
def Obligations.SetMotorShieldRunsToItsEnd : Prop :=
  ∀ (on : Bool) (s : State), s.seq = .ready → s.faultHw = false → s.opened = true → NoReset 1 s →
    ∃ t, exec (.setMotorShield on) s = .next t ∧ t = { s with seq := .shield on } ∧
      run 1 t = .next { shieldResult on s with inputs := s.inputs.drop 1 }

/-- R112: the seven reserved patterns change nothing, in any state. This is the spec's own decision D4 (log entry 10). -/
def Obligations.ReservedWordsHaveNoEffect : Prop :=
  ∀ s : State,
    exec .reserved1 s = .next s ∧ exec .reserved3 s = .next s ∧ exec .reserved5 s = .next s ∧
    exec .reserved7 s = .next s ∧ exec .reserved9 s = .next s ∧ exec .reservedB s = .next s ∧
    exec (.reservedE false) s = .next s ∧ exec (.reservedE true) s = .next s

/-- R213 (2), (3), (5), R216: where a command is not accepted it has no effect at all. These are the spec's own decisions
D4, D5, D6 (log entry 10). -/
def Obligations.NotAcceptedHasNoEffect : Prop :=
  ∀ (i : Instr) (s : State), s.seq ≠ .ready ∨ s.faultHw = true ∨ (i ≠ .init ∧ s.opened = false) → exec i s = .next s

/-- R28(a), R190, R171, R216: the frame of a presentation, for all fourteen constructors. No line, no event, nothing of the
target device, of the status the host reads or of `sr` changes; `mreg` changes only for a direction, `opened` and
`fault_hw` only for `INIT`. -/
def Obligations.PresentationFrame : Prop :=
  ∀ (i : Instr) (s t : State), exec i s = .next t →
    t.lines = s.lines ∧ t.trace = s.trace ∧ t.devS = s.devS ∧ t.devQ = s.devQ ∧ t.enabled = s.enabled ∧
    t.lastMask = s.lastMask ∧ t.sr = s.sr ∧ t.cfg = s.cfg ∧ t.inputs = s.inputs ∧ t.freeCount = s.freeCount ∧
    ((∀ d, (i, d) ∉ directionalCommands) → t.mreg = s.mreg) ∧
    (i ≠ .init → t.opened = s.opened ∧ t.faultHw = s.faultHw)

/-! The micro-steps -/

/-- R130: `LineWrite(L, v)`. The line takes the level and no other line moves, the event is recorded, the device shifts on
a rising edge of `CLOCK` and copies on a rising edge of `LATCH`, and nothing else changes. That the first stage is bit 0
of `S` is the spec's own decision D15 (log entry 14). -/
def Obligations.LineWriteDoesItsPseudocode : Prop :=
  ∀ (s : State) (l : Line) (v : Level),
    (lineWrite s l v).lines.get l = v ∧
    (∀ k, k ≠ l → (lineWrite s l v).lines.get k = s.lines.get k) ∧
    (lineWrite s l v).trace = s.trace ++ [.write l v] ∧
    (lineWrite s l v).devS =
      (if l = .clock ∧ s.lines.clock = .low ∧ v = .high
        then (s.devS <<< 1) ||| (if s.lines.data = .high then 0x01 else 0x00) else s.devS) ∧
    (lineWrite s l v).devQ = (if l = .latch ∧ s.lines.latch = .low ∧ v = .high then s.devS else s.devQ) ∧
    lineWrite s l v =
      { s with
        lines := (lineWrite s l v).lines
        trace := (lineWrite s l v).trace
        devS := (lineWrite s l v).devS
        devQ := (lineWrite s l v).devQ }

/-- R132: `Settle()` appends the event `T` and changes nothing else; a settle delay of zero is not allowed; in the clocked
rendering the step lasts `T_SETTLE` cycles, every time. -/
def Obligations.SettleOnlyRecords : Prop :=
  (∀ s : State, settle s = { s with trace := s.trace ++ [.settle] }) ∧
  (∀ (r : RawConfig) (c : Config), Config.check r = .ok c → r.tSettle ≠ 0 ∧ c.tSettle = r.tSettle) ∧
  (∀ (T : Nat) (i : Fin 8), (Seq.rwSettle i).cycles T = T)

/-- R170, R193: `ARM(c)` and `STOP(c)` as steps: one motor enable moves, channels in ascending order, then the frame or
`SHIELD(false)` follows. The order is the spec's own decision D9 (log entry 11). -/
def Obligations.EnableStepsAscend : Prop :=
  ∀ (s : State) (c : Channel), NoResetNow s →
    (s.seq = .arm c → step s = .next { popInput s with
      lines := s.lines.set (menLine c) .high, trace := s.trace ++ [.write (menLine c) .high],
      seq := match c with
        | .m1 => .arm .m2
        | .m2 => .arm .m3
        | .m3 => .arm .m4
        | .m4 => .rwLatchLo }) ∧
    (s.seq = .stop c → step s = .next { popInput s with
      lines := s.lines.set (menLine c) .low, trace := s.trace ++ [.write (menLine c) .low],
      seq := match c with
        | .m1 => .stop .m2
        | .m2 => .stop .m3
        | .m3 => .stop .m4
        | .m4 => .shield false })

/-- R190: `INIT(k)` as a step: line number `k` goes low, nothing else of the lines or the device moves. The order is the
spec's own decision D9 (log entry 11). -/
def Obligations.InitStepsDriveLow : Prop :=
  ∀ (s : State) (k : Fin 8), NoResetNow s → s.seq = .init k →
    step s = .next { popInput s with
      lines := s.lines.set (lineOfNumber k) .low, trace := s.trace ++ [.write (lineOfNumber k) .low],
      seq := if k = 7 then .ready else .init (k + 1) }

/-- R151: `RW_LATCH_LO` as a step: `LATCH` low, `sr <- mreg`; the target device ignores the edge. -/
def Obligations.LatchLowStepLoadsTheMask : Prop :=
  ∀ s : State, NoResetNow s → s.seq = .rwLatchLo →
    step s = .next { popInput s with
      lines := { s.lines with latch := .low }, trace := s.trace ++ [.write .latch .low], sr := s.mreg, seq := .rwData 0 }

/-- R152: `RW_DATA(i)` as a step: the top bit of `sr`, which is bit `7 - i` of `mreg`, goes to `DATA`, and `sr` moves
left. The value of `sr` before the step is the spec's own inference. -/
def Obligations.DataStepSendsTheBit : Prop :=
  ∀ (s : State) (i : Fin 8), s.Inv → NoResetNow s → s.seq = .rwData i →
    s.sr = s.mreg <<< i.val ∧
    step s = .next { popInput s with
      lines := { s.lines with data := if s.sr &&& 0x80 = 0x80 then .high else .low },
      trace := s.trace ++ [.write .data (if s.sr &&& 0x80 = 0x80 then .high else .low)],
      sr := s.sr <<< 1, seq := .rwClkHi i } ∧
    ((s.sr &&& 0x80 = 0x80) ↔ s.mreg.getLsbD (7 - i.val) = true) ∧ (i = 7 → s.sr <<< 1 = 0x00)

/-- R153: `RW_CLK_HI(i)` as a step: always a rising edge, so the level that `RW_DATA(i)` put on `DATA`, bit `7 - i` of
`mreg`, enters the first stage. That the first stage is bit 0 of `S` is the spec's own decision D15 (log entry 14). -/
def Obligations.ClockHighStepShiftsTheDevice : Prop :=
  ∀ (s : State) (i : Fin 8), s.Inv → NoResetNow s → s.seq = .rwClkHi i →
    s.lines.clock = .low ∧ s.lines.data = bitLevel s.mreg (7 - i.val) ∧
    step s = .next { popInput s with
      lines := { s.lines with clock := .high }, trace := s.trace ++ [.write .clock .high],
      devS := (s.devS <<< 1) ||| (if s.lines.data = .high then 0x01 else 0x00), seq := .rwSettle i }

/-- R154: `RW_SETTLE(i)` as a step: the trace gains one `T`, no line and no state changes but `seq`. -/
def Obligations.SettleStepOnlyWaits : Prop :=
  ∀ (s : State) (i : Fin 8), NoResetNow s → s.seq = .rwSettle i →
    step s = .next { popInput s with trace := s.trace ++ [.settle], seq := .rwClkLo i }

/-- R155: `RW_CLK_LO(i)` as a step: a falling edge, which the target device ignores, and the next cell or the latch. That
no delay follows is the spec's own decision D12. -/
def Obligations.ClockLowStepMovesOn : Prop :=
  ∀ (s : State) (i : Fin 8), NoResetNow s → s.seq = .rwClkLo i →
    step s = .next { popInput s with
      lines := { s.lines with clock := .low }, trace := s.trace ++ [.write .clock .low],
      seq := if i.val < 7 then .rwData (i + 1) else .rwLatchHi }

/-- R157: `RW_LATCH_HI` as a step: always a rising edge, so the eight staged bits are presented at once. -/
def Obligations.LatchHighStepPresentsTheMask : Prop :=
  ∀ s : State, s.Inv → NoResetNow s → s.seq = .rwLatchHi →
    s.lines.latch = .low ∧
    step s = .next { popInput s with
      lines := { s.lines with latch := .high }, trace := s.trace ++ [.write .latch .high],
      devQ := s.devS, seq := .rwRecord }

/-- R158: `RW_RECORD` as a step: `lastMask <- mreg`, no line is written. That the recording is a step of its own is the
spec's own decision D18. -/
def Obligations.RecordStepKeepsTheOriginalMask : Prop :=
  ∀ s : State, NoResetNow s → s.seq = .rwRecord →
    step s = .next { popInput s with lastMask := s.mreg, seq := .shield true }

/-- R191: `SHIELD(on)` as a step: the register-enable line takes the inverse of `on` and `enabled` becomes `on`. -/
def Obligations.ShieldStepWritesLineAndFlag : Prop :=
  ∀ (s : State) (on : Bool), NoResetNow s → s.seq = .shield on →
    step s = .next { popInput s with
      lines := { s.lines with regEnN := if on = true then .low else .high },
      trace := s.trace ++ [.write .regEnN (if on = true then .low else .high)], enabled := on, seq := .ready }

/-- R14, R80: the frame of the lines. A step without `rst` writes at most the one line its position names; every other
line keeps its level, and the trace grows by exactly that write, by the settle event, or by nothing. The granularity of a
step is the spec's own decision D1. -/
def Obligations.StepWritesAtMostOneLine : Prop :=
  ∀ s t : State, NoResetNow s → step s = .next t →
    (∀ l, s.seq.lineWritten ≠ some l → t.lines.get l = s.lines.get l) ∧
    (∀ l, s.seq.lineWritten = some l → t.trace = s.trace ++ [.write l (t.lines.get l)]) ∧
    (s.seq.lineWritten = none →
      t.trace = s.trace ++ (if ∃ i, s.seq = .rwSettle i then [.settle] else []))

/-- R28(c), R156: a fixed number of steps. With no reset in them, the steps left at a position lead to `READY`, and not
before, whatever words are presented and whatever the data. The counts are the spec's own inference. -/
def Obligations.EveryCommandReturnsToReady : Prop :=
  ∀ s : State, NoReset s.seq.remaining s →
    (∃ t, run s.seq.remaining s = .next t ∧ t.seq = .ready) ∧
    ∀ k, k < s.seq.remaining → ∃ t, run k s = .next t ∧ t.seq ≠ .ready

/-- R253: the cycle counts of the spec's clocked rendering, for every settle delay. That every other micro-step lasts one
cycle is the spec's own decision D12. -/
def Obligations.CycleCountsAsTabled : Prop :=
  ∀ T : Nat,
    Seq.cyclesOf T 34 .rwLatchLo = 26 + 8 * T ∧ Seq.cyclesOf T (Seq.arm .m1).remaining (.arm .m1) = 32 + 8 * T ∧
    Seq.cyclesOf T (Seq.init 0).remaining (.init 0) = 8 ∧ Seq.cyclesOf T (Seq.stop .m1).remaining (.stop .m1) = 5 ∧
    ∀ on, Seq.cyclesOf T (Seq.shield on).remaining (.shield on) = 1

/-! Who writes what -/

/-- R22, R191: `enabled` is written only by the micro-step `SHIELD(on)`; a reset clears it. That `SHIELD(on)` is the
writer is the spec's resolution C3. -/
def Obligations.OnlyShieldWritesEnabled : Prop :=
  ∀ s t : State, step s = .next t →
    ((presented s).rst = true ∧ t.enabled = false) ∨
    (NoResetNow s ∧ ∃ on, s.seq = .shield on ∧ t.enabled = on) ∨
    (NoResetNow s ∧ (∀ on, s.seq ≠ .shield on) ∧ t.enabled = s.enabled)

/-- R23: `lastMask` is written only by `RW_RECORD`, with the original mask; a reset clears it. -/
def Obligations.OnlyRecordWritesLastMask : Prop :=
  ∀ s t : State, step s = .next t →
    ((presented s).rst = true ∧ t.lastMask = 0x00) ∨
    (NoResetNow s ∧ s.seq = .rwRecord ∧ t.lastMask = s.mreg) ∨
    (NoResetNow s ∧ s.seq ≠ .rwRecord ∧ t.lastMask = s.lastMask)

/-- R24: `opened` is set by an accepted `INIT` with a GPIO controller, and cleared by nothing but reset. `opened` is the
spec's own decision D6. -/
def Obligations.OnlyInitOpens : Prop :=
  ∀ s t : State, step s = .next t → NoResetNow s →
    (s.opened = true → t.opened = true) ∧
    (s.opened = false → t.opened = true →
      s.seq = .ready ∧ s.faultHw = false ∧ s.cfg.gpioPresent = true ∧ ∃ w, (presented s).cmd = some w ∧ decode w = .init)

/-- R210, R25: the fault is raised by an accepted `INIT` without a GPIO controller and by nothing else, and only a reset
clears it. `fault_hw` is the spec's own decision D14. -/
def Obligations.OnlyInitRaisesTheFault : Prop :=
  ∀ s t : State, step s = .next t → NoResetNow s →
    (s.faultHw = true → t.faultHw = true) ∧
    (s.faultHw = false → t.faultHw = true →
      s.seq = .ready ∧ s.cfg.gpioPresent = false ∧ (∃ w, (presented s).cmd = some w ∧ decode w = .init) ∧
      t = { popInput s with faultHw := true })

/-- R66(b), R72, R73, R160: the target device's outputs change only in `RW_LATCH_HI`, to the staged bits, and its shift
stage only in `RW_CLK_HI(i)`; a reset changes neither. The reading of the latch as an edge is the spec's own decision D15
(log entry 14). -/
def Obligations.DeviceMovesOnlyOnItsEdges : Prop :=
  ∀ s t : State, step s = .next t →
    (t.devQ = s.devQ ∨ (s.seq = .rwLatchHi ∧ t.devQ = s.devS)) ∧
    (t.devS = s.devS ∨ ∃ i, s.seq = .rwClkHi i)

/-- R31: the parameters of the instance are constants. -/
def Obligations.ParametersNeverChange : Prop :=
  ∀ (n : Nat) (s t : State), run n s = .next t → t.cfg = s.cfg

/-- R30: no step depends on `enabled` or on `lastMask`: two states that differ only there step to states that differ only
there. -/
def Obligations.StatusBitsSteerNothing : Prop :=
  ∀ (s t : State) (e : Bool) (m : Byte), step s = .next t →
    ∃ t', step { s with enabled := e, lastMask := m } = .next t' ∧
      t = { t' with enabled := t.enabled, lastMask := t.lastMask }

/-- R70, R131: MSSC cannot read the target device: with another content of the device the machine's own state takes the same
steps. -/
def Obligations.DeviceIsNeverRead : Prop :=
  ∀ (n : Nat) (s t : State) (stages outputs : Byte), run n s = .next t →
    ∃ t', run n { s with devS := stages, devQ := outputs } = .next t' ∧ t = { t' with devS := t.devS, devQ := t.devQ }

/-! The frame and the device -/

/-- R78: the content of the target device in a frame of any mask, from any prior content. After `j` bit cells the stages
hold `u8((S0 << j) | (m >> (8 - j)))` and the outputs are as before the frame; after the latch both are the mask. R78 is
the spec's own inference. -/
def Obligations.FrameFillsTheDevice : Prop :=
  ∀ s : State, s.seq = .rwLatchLo → s.lines.clock = .low → NoReset 34 s →
    (∀ j, j ≤ 8 → ∃ t, run (1 + 4 * j) s = .next t ∧
      t.devS = (s.devS <<< j) ||| (s.mreg >>> (8 - j)) ∧ t.devQ = s.devQ ∧ t.lines.latch = .low) ∧
    ∃ t, run 34 s = .next t ∧ t.devS = s.mreg ∧ t.devQ = s.mreg ∧ t.lines.latch = .high ∧
      t.trace = s.trace ++ frameTrace s.mreg

/-- R79: in every state that can be reached from a reset, whatever the host does, once a frame has been latched the device
holds `lastMask` whenever no command is in flight. R79 is the spec's own inference. -/
def Obligations.DeviceHoldsLastMask : Prop :=
  ∀ (n : Nat) (s t : State), s.AfterReset → run n s = .next t → t.seq = .ready → t.latched = true →
    t.devS = t.lastMask ∧ t.devQ = t.lastMask

/-- R34: the facts of the states with `seq = READY` reachable from a reset. R34 is the spec's own inference. Of R34(b) it
says that `LATCH` is high only once a frame has been latched; of R34(d) that the motor enables are equal in every such
state. -/
def Obligations.ReadyLinesAtRest : Prop :=
  ∀ (n : Nat) (s t : State), s.AfterReset → run n s = .next t → t.seq = .ready →
    t.lines.clock = .low ∧ (t.lines.latch = .high → t.latched = true) ∧
    t.lines.data = (if t.lines.latch = .high then bitLevel t.lastMask 0 else .low) ∧
    t.lines.men1 = t.lines.men2 ∧ t.lines.men2 = t.lines.men3 ∧ t.lines.men3 = t.lines.men4

/-! Invariants -/

/-- The invariant holds at `State.reset`, and in every state a reset can leave, whatever the parameters and the device's
content. It holds of the unspecified values for every value they may have. -/
def Obligations.ResetMeetsTheInvariant : Prop := State.reset.Inv ∧ ∀ s : State, s.AfterReset → s.Inv

/-- R28, R34, R66, R78, R79, R160: every step keeps the invariant, from every state that meets it and for every input. -/
def Obligations.StepKeepsTheInvariant : Prop := ∀ s t : State, s.Inv → step s = .next t → t.Inv

/-- R215, R217: once the fault is raised nothing changes, whatever is presented, until a reset. The sticky bit is the
spec's own decision D14. -/
def Obligations.FaultLastsUntilReset : Prop :=
  ∀ (n : Nat) (s : State), s.Inv → s.faultHw = true → NoReset n s → run n s = .next { s with inputs := s.inputs.drop n }

/-- R217, R190: an instance without a GPIO controller never drives a line, resets and all. -/
def Obligations.NoControllerNoLineMoves : Prop :=
  ∀ (n : Nat) (s t : State), s.Inv → s.cfg.gpioPresent = false → run n s = .next t →
    t.lines = .allLow ∧ t.trace = [] ∧ t.opened = false ∧ t.devS = s.devS ∧ t.devQ = s.devQ

/-! Views, outputs, motors -/

/-- R101: the channel bit table. -/
def Obligations.ChannelBitsAsTabled : Prop :=
  Channel.m1.bitA = 0x04 ∧ Channel.m1.bitB = 0x08 ∧ Channel.m2.bitA = 0x02 ∧ Channel.m2.bitB = 0x10 ∧
  Channel.m3.bitA = 0x20 ∧ Channel.m3.bitB = 0x80 ∧ Channel.m4.bitA = 0x01 ∧ Channel.m4.bitB = 0x40

/-- R107: the Forward mask, and the other reading, `0x35`, which stays an instance. -/
def Obligations.ForwardMaskIsTheExpression : Prop :=
  DirEntry.forward.mask = (Channel.m1.bitB ||| Channel.m2.bitB ||| Channel.m3.bitA ||| Channel.m4.bitA) ∧
  DirEntry.forward.mask = 0x39 ∧ State.reset.cfg.dirMask .forward = 0x39 ∧
  ∃ c : Config, c.dirMask .forward = 0x35

/-- R9, R106, R132: which instances are refused, and that an accepted instance has the masks it was given. The constraint
on the masks is the spec's own decision D19 (log entry 9). -/
def Obligations.InstanceCheckIsExact : Prop :=
  ∀ r : RawConfig,
    ((∃ c, Config.check r = .ok c) ↔
      (∀ (d : Dir) (c : Channel), r.dirMask d &&& c.bitA = 0 ∨ r.dirMask d &&& c.bitB = 0) ∧
        r.lineId.toList.Nodup ∧ 1 ≤ r.tSettle) ∧
    ∀ c, Config.check r = .ok c → (∀ d, c.dirMask d = r.dirMask d) ∧ c.wf

/-- R134: `StatusRead` returns the current values in any state; during a directional command the old `lastMask` until
`RW_RECORD` and the old `enabled` until `SHIELD(true)`. What it returns during a directional command is the spec's own
inference. -/
def Obligations.StatusShowsTheRegisters : Prop :=
  (∀ s : State, s.status = ⟨s.enabled, s.lastMask, decide (s.seq = .ready), s.faultHw⟩) ∧
  (∀ s t : State, NoResetNow s → step s = .next t → s.seq.transmitting = true →
    t.status.enabled = s.status.enabled ∧ (s.seq ≠ .rwRecord → t.status.lastMask = s.status.lastMask)) ∧
  State.reset.status = ⟨false, 0x00, true, false⟩

/-- R74: the outputs while `REG_EN_n` is `Low` and while it is `High`; writing `REG_EN_n` moves neither `S` nor `Q`. -/
def Obligations.OutputEnableGatesTheOutputs : Prop :=
  ∀ s : State,
    (s.lines.regEnN = .low → s.out = some s.devQ) ∧ (s.lines.regEnN = .high → s.out = none) ∧
    ∀ v, (lineWrite s .regEnN v).devS = s.devS ∧ (lineWrite s .regEnN v).devQ = s.devQ

/-- R32: the function `view`, row by row; the state after reset and the state after a first `INIT` are `Idle`. -/
def Obligations.ViewAsTabled : Prop :=
  ∀ s : State,
    (s.view = .transmitting ↔
      (∃ c, s.seq = .arm c) ∨ s.seq = .rwLatchLo ∨
        (∃ i, s.seq = .rwData i ∨ s.seq = .rwClkHi i ∨ s.seq = .rwSettle i ∨ s.seq = .rwClkLo i) ∨
        s.seq = .rwLatchHi ∨ s.seq = .rwRecord) ∧
    (s.view = .idle ↔ s.seq = .ready ∧ s.enabled = false ∧ ∀ c, s.men c = .low) ∧
    (s.view = .running ↔ s.seq = .ready ∧ s.enabled = true ∧ ∀ c, s.men c = .high) ∧
    (s.view = .other ↔ s.view ≠ .transmitting ∧ s.view ≠ .idle ∧ s.view ≠ .running) ∧
    (s.AfterReset → s.view = .idle ∧ (initResult s).view = .idle)

/-- R76, R77: the motor condition row by row, with the two rows the spec leaves undefined given no value (log entry 16).
R77's function is the spec's own inference. -/
def Obligations.MotorConditionAsTabled : Prop :=
  ∀ (s : State) (c : Channel),
    (s.men c = .low → s.motorCondition c = some .off) ∧
    (s.men c = .high → s.lines.regEnN = .high → s.motorCondition c = none) ∧
    (s.men c = .high → s.lines.regEnN = .low →
      (s.devQ &&& c.bitA = 0 → s.devQ &&& c.bitB = 0 → s.motorCondition c = some .coast) ∧
      (s.devQ &&& c.bitA ≠ 0 → s.devQ &&& c.bitB = 0 → s.motorCondition c = some .dirA) ∧
      (s.devQ &&& c.bitA = 0 → s.devQ &&& c.bitB ≠ 0 → s.motorCondition c = some .dirB) ∧
      (s.devQ &&& c.bitA ≠ 0 → s.devQ &&& c.bitB ≠ 0 → s.motorCondition c = none))

/-- R241: after a reset every channel is `Off`, whatever the target device holds, although its outputs are enabled. R241
is the spec's own inference. -/
def Obligations.MotorsOffAfterReset : Prop :=
  ∀ s t : State, (presented s).rst = true → step s = .next t →
    (∀ c, t.motorCondition c = some .off) ∧ t.out = some s.devQ ∧ t.view = .idle

/-- R33, R171, R192, R77: a directional command ends in `Running`, with every channel in the condition its table entry asks
for; `MOTOR_STOP` ends in `Idle` with every channel `Off`. -/
def Obligations.MotionCommandsEndAsTabled : Prop :=
  ∀ s : State,
    (∀ d : Dir, (directionResult (s.cfg.dirMask d) s).view = .running ∧
      ∀ c, (directionResult (s.cfg.dirMask d) s).motorCondition c = some (conditionOf ((s.cfg.dirEntry d).drive c))) ∧
    (stopResult s).view = .idle ∧ ∀ c, (stopResult s).motorCondition c = some .off

/-- R32, R33: in every state the invariant allows, the view is `Transmitting` from the acceptance of a directional command
until `RW_RECORD` has executed, and during the frame all four motor enables are high (R246). -/
def Obligations.FrameIsTransmittingWithEnablesHigh : Prop :=
  ∀ s : State, s.Inv → s.seq.transmitting = true →
    s.view = .transmitting ∧ (s.seq.shifterBusy = true → ∀ c, s.men c = .high)

/-- R68: executing any command twice in a row leaves the lines, `enabled`, `lastMask`, `S` and `Q` as executing it once.
R68 is the spec's own inference beyond the directional commands. -/
def Obligations.CommandsAreIdempotent : Prop :=
  ∀ (i : Instr) (s : State), i.isReserved = false → s.Inv → s.seq = .ready → s.faultHw = false → s.opened = true →
    ∃ t u t' u', exec i s = .next t ∧ u = microSteps t.seq.remaining t ∧ u.seq = .ready ∧
      exec i u = .next t' ∧ u' = microSteps t'.seq.remaining t' ∧ u'.seq = .ready ∧
      u'.lines = u.lines ∧ u'.enabled = u.enabled ∧ u'.lastMask = u.lastMask ∧ u'.devS = u.devS ∧ u'.devQ = u.devQ

/-- R192, R248: a `MOTOR_STOP` that the host holds takes effect from any state of an opened machine: within 46 steps all
four motor enables are low and `enabled` is false, even with a frame in flight. That a held word is taken when `READY`
returns is the spec's own decision D5 (log entry 10). -/
def Obligations.HeldStopStopsTheMotors : Prop :=
  ∀ s : State, s.Inv → s.opened = true → (∀ inp ∈ s.inputs.take 46, inp = ⟨false, some 0xA⟩) → 46 ≤ s.inputs.length →
    ∃ k t, k ≤ 46 ∧ run k s = .next t ∧ t.seq = .ready ∧ t.enabled = false ∧ t.menAll .low = true ∧
      t.lines.regEnN = .high ∧ ∀ c, t.motorCondition c = some .off

/-- R19, R226: a host that holds each command until it is accepted gets through every list of commands, and the run ends
well. The handshake is the spec's own decision D5 (log entry 10). -/
def Obligations.HandshakeRunsEveryList : Prop :=
  ∀ (cmds : List Cmd) (s : State), s.Inv → s.opened = true → (∀ w ∈ cmds, (decode w).isReserved = false) →
    ∃ n, n ≤ 41 * (cmds.length + 1) ∧ (HostRun.steps n ⟨cmds, s⟩).ended = true
end

