-- ==== Sys2Proof/Laws/State.lean ====
section
/-! SUPPORT. What each update of the state does to each field: true by unfolding, so that no later proof unfolds a record
update. -/

namespace Sys2Proof.Machine

section

variable (s : State)

@[simp] theorem popInput_lines : (popInput s).lines = s.lines := rfl
@[simp] theorem popInput_enabled : (popInput s).enabled = s.enabled := rfl
@[simp] theorem popInput_lastMask : (popInput s).lastMask = s.lastMask := rfl
@[simp] theorem popInput_opened : (popInput s).opened = s.opened := rfl
@[simp] theorem popInput_faultHw : (popInput s).faultHw = s.faultHw := rfl
@[simp] theorem popInput_seq : (popInput s).seq = s.seq := rfl
@[simp] theorem popInput_mreg : (popInput s).mreg = s.mreg := rfl
@[simp] theorem popInput_sr : (popInput s).sr = s.sr := rfl
@[simp] theorem popInput_trace : (popInput s).trace = s.trace := rfl
@[simp] theorem popInput_devS : (popInput s).devS = s.devS := rfl
@[simp] theorem popInput_devQ : (popInput s).devQ = s.devQ := rfl
@[simp] theorem popInput_cfg : (popInput s).cfg = s.cfg := rfl
@[simp] theorem popInput_inputs : (popInput s).inputs = s.inputs.tail := rfl
@[simp] theorem popInput_freeCount : (popInput s).freeCount = s.freeCount := rfl

end

section

variable (s : State) (p : Seq)

@[simp] theorem setSeq_lines : (setSeq s p).lines = s.lines := rfl
@[simp] theorem setSeq_enabled : (setSeq s p).enabled = s.enabled := rfl
@[simp] theorem setSeq_lastMask : (setSeq s p).lastMask = s.lastMask := rfl
@[simp] theorem setSeq_opened : (setSeq s p).opened = s.opened := rfl
@[simp] theorem setSeq_faultHw : (setSeq s p).faultHw = s.faultHw := rfl
@[simp] theorem setSeq_seq : (setSeq s p).seq = p := rfl
@[simp] theorem setSeq_mreg : (setSeq s p).mreg = s.mreg := rfl
@[simp] theorem setSeq_sr : (setSeq s p).sr = s.sr := rfl
@[simp] theorem setSeq_trace : (setSeq s p).trace = s.trace := rfl
@[simp] theorem setSeq_devS : (setSeq s p).devS = s.devS := rfl
@[simp] theorem setSeq_devQ : (setSeq s p).devQ = s.devQ := rfl
@[simp] theorem setSeq_cfg : (setSeq s p).cfg = s.cfg := rfl
@[simp] theorem setSeq_inputs : (setSeq s p).inputs = s.inputs := rfl
@[simp] theorem setSeq_freeCount : (setSeq s p).freeCount = s.freeCount := rfl

end

section

variable (s : State) (l : Line) (v : Level)

@[simp] theorem lineWrite_lines : (lineWrite s l v).lines = s.lines.set l v := rfl
@[simp] theorem lineWrite_enabled : (lineWrite s l v).enabled = s.enabled := rfl
@[simp] theorem lineWrite_lastMask : (lineWrite s l v).lastMask = s.lastMask := rfl
@[simp] theorem lineWrite_opened : (lineWrite s l v).opened = s.opened := rfl
@[simp] theorem lineWrite_faultHw : (lineWrite s l v).faultHw = s.faultHw := rfl
@[simp] theorem lineWrite_seq : (lineWrite s l v).seq = s.seq := rfl
@[simp] theorem lineWrite_mreg : (lineWrite s l v).mreg = s.mreg := rfl
@[simp] theorem lineWrite_sr : (lineWrite s l v).sr = s.sr := rfl
@[simp] theorem lineWrite_trace : (lineWrite s l v).trace = s.trace ++ [.write l v] := rfl
@[simp] theorem lineWrite_devS : (lineWrite s l v).devS = shiftStageAfter s l v := rfl
@[simp] theorem lineWrite_devQ : (lineWrite s l v).devQ = outputLatchAfter s l v := rfl
@[simp] theorem lineWrite_cfg : (lineWrite s l v).cfg = s.cfg := rfl
@[simp] theorem lineWrite_inputs : (lineWrite s l v).inputs = s.inputs := rfl
@[simp] theorem lineWrite_freeCount : (lineWrite s l v).freeCount = s.freeCount := rfl

end

section

variable (s : State)

@[simp] theorem settle_lines : (settle s).lines = s.lines := rfl
@[simp] theorem settle_enabled : (settle s).enabled = s.enabled := rfl
@[simp] theorem settle_lastMask : (settle s).lastMask = s.lastMask := rfl
@[simp] theorem settle_opened : (settle s).opened = s.opened := rfl
@[simp] theorem settle_faultHw : (settle s).faultHw = s.faultHw := rfl
@[simp] theorem settle_seq : (settle s).seq = s.seq := rfl
@[simp] theorem settle_mreg : (settle s).mreg = s.mreg := rfl
@[simp] theorem settle_sr : (settle s).sr = s.sr := rfl
@[simp] theorem settle_trace : (settle s).trace = s.trace ++ [.settle] := rfl
@[simp] theorem settle_devS : (settle s).devS = s.devS := rfl
@[simp] theorem settle_devQ : (settle s).devQ = s.devQ := rfl
@[simp] theorem settle_cfg : (settle s).cfg = s.cfg := rfl
@[simp] theorem settle_inputs : (settle s).inputs = s.inputs := rfl
@[simp] theorem settle_freeCount : (settle s).freeCount = s.freeCount := rfl

end

section

variable (s : State)

@[simp] theorem raiseHardwareUnavailable_lines : (raiseHardwareUnavailable s).lines = s.lines := rfl
@[simp] theorem raiseHardwareUnavailable_enabled : (raiseHardwareUnavailable s).enabled = s.enabled := rfl
@[simp] theorem raiseHardwareUnavailable_lastMask : (raiseHardwareUnavailable s).lastMask = s.lastMask := rfl
@[simp] theorem raiseHardwareUnavailable_opened : (raiseHardwareUnavailable s).opened = s.opened := rfl
@[simp] theorem raiseHardwareUnavailable_faultHw : (raiseHardwareUnavailable s).faultHw = true := rfl
@[simp] theorem raiseHardwareUnavailable_seq : (raiseHardwareUnavailable s).seq = s.seq := rfl
@[simp] theorem raiseHardwareUnavailable_mreg : (raiseHardwareUnavailable s).mreg = s.mreg := rfl
@[simp] theorem raiseHardwareUnavailable_sr : (raiseHardwareUnavailable s).sr = s.sr := rfl
@[simp] theorem raiseHardwareUnavailable_trace : (raiseHardwareUnavailable s).trace = s.trace := rfl
@[simp] theorem raiseHardwareUnavailable_devS : (raiseHardwareUnavailable s).devS = s.devS := rfl
@[simp] theorem raiseHardwareUnavailable_devQ : (raiseHardwareUnavailable s).devQ = s.devQ := rfl
@[simp] theorem raiseHardwareUnavailable_cfg : (raiseHardwareUnavailable s).cfg = s.cfg := rfl
@[simp] theorem raiseHardwareUnavailable_inputs : (raiseHardwareUnavailable s).inputs = s.inputs := rfl
@[simp] theorem raiseHardwareUnavailable_freeCount : (raiseHardwareUnavailable s).freeCount = s.freeCount := rfl

end

section

variable (s : State)

@[simp] theorem resetEvent_lines : (resetEvent s).lines = .allLow := rfl
@[simp] theorem resetEvent_enabled : (resetEvent s).enabled = false := rfl
@[simp] theorem resetEvent_lastMask : (resetEvent s).lastMask = 0x00 := rfl
@[simp] theorem resetEvent_opened : (resetEvent s).opened = false := rfl
@[simp] theorem resetEvent_faultHw : (resetEvent s).faultHw = false := rfl
@[simp] theorem resetEvent_seq : (resetEvent s).seq = .ready := rfl
@[simp] theorem resetEvent_mreg : (resetEvent s).mreg = Config.freeByte s.freeCount := rfl
@[simp] theorem resetEvent_sr : (resetEvent s).sr = Config.freeByte (s.freeCount + 1) := rfl
@[simp] theorem resetEvent_trace : (resetEvent s).trace = [] := rfl
@[simp] theorem resetEvent_devS : (resetEvent s).devS = s.devS := rfl
@[simp] theorem resetEvent_devQ : (resetEvent s).devQ = s.devQ := rfl
@[simp] theorem resetEvent_cfg : (resetEvent s).cfg = s.cfg := rfl
@[simp] theorem resetEvent_inputs : (resetEvent s).inputs = s.inputs := rfl
@[simp] theorem resetEvent_freeCount : (resetEvent s).freeCount = s.freeCount + 2 := rfl

end

section

variable (s : State) (inp : HostInput)

@[simp] theorem placeInput_lines : (placeInput s inp).lines = s.lines := rfl
@[simp] theorem placeInput_enabled : (placeInput s inp).enabled = s.enabled := rfl
@[simp] theorem placeInput_lastMask : (placeInput s inp).lastMask = s.lastMask := rfl
@[simp] theorem placeInput_opened : (placeInput s inp).opened = s.opened := rfl
@[simp] theorem placeInput_faultHw : (placeInput s inp).faultHw = s.faultHw := rfl
@[simp] theorem placeInput_seq : (placeInput s inp).seq = .ready := rfl
@[simp] theorem placeInput_mreg : (placeInput s inp).mreg = s.mreg := rfl
@[simp] theorem placeInput_sr : (placeInput s inp).sr = s.sr := rfl
@[simp] theorem placeInput_trace : (placeInput s inp).trace = s.trace := rfl
@[simp] theorem placeInput_devS : (placeInput s inp).devS = s.devS := rfl
@[simp] theorem placeInput_devQ : (placeInput s inp).devQ = s.devQ := rfl
@[simp] theorem placeInput_cfg : (placeInput s inp).cfg = s.cfg := rfl
@[simp] theorem placeInput_inputs : (placeInput s inp).inputs = inp :: s.inputs := rfl
@[simp] theorem placeInput_freeCount : (placeInput s inp).freeCount = s.freeCount := rfl

end

@[simp] theorem notAccepted_eq (s : State) : notAccepted s = s := rfl

end Sys2Proof.Machine
end

