-- ==== Sys2Proof/Laws/Lines.lean ====
section
/-! SUPPORT. The lines as a store of eight bits: a read after a write, and what a line write does to the target device. -/

namespace Sys2Proof.Machine

@[simp] theorem Lines.get_set_same (ls : Lines) (l : Line) (v : Level) : (ls.set l v).get l = v := by
  cases l <;> rfl

@[simp] theorem Lines.get_set_other (ls : Lines) {l k : Line} (v : Level) (h : k ≠ l) : (ls.set l v).get k = ls.get k := by
  cases l <;> cases k <;> first | rfl | exact absurd rfl h

@[simp] theorem Lines.set_get (ls : Lines) (l : Line) : ls.set l (ls.get l) = ls := by
  cases l <;> rfl

theorem Lines.ext_get {ls ks : Lines} (h : ∀ l, ls.get l = ks.get l) : ls = ks := by
  cases ls
  cases ks
  simp only [Lines.mk.injEq]
  exact ⟨h .latch, h .clock, h .data, h .regEnN, h .men1, h .men2, h .men3, h .men4⟩

@[simp] theorem rises_low_high : rises .low .high = true := rfl

@[simp] theorem rises_to_low (v : Level) : rises v .low = false := by cases v <;> rfl

@[simp] theorem rises_from_high (v : Level) : rises .high v = false := by cases v <;> rfl

/-- The shift stage moves only when a write to `CLOCK` makes a rising edge (R72). -/
theorem shiftStageAfter_eq_self {s : State} {l : Line} {v : Level} (h : l ≠ .clock ∨ rises s.lines.clock v = false) :
    shiftStageAfter s l v = s.devS := by
  rcases h with h | h <;> simp [shiftStageAfter, h]

/-- The output latch moves only when a write to `LATCH` makes a rising edge (R73). -/
theorem outputLatchAfter_eq_self {s : State} {l : Line} {v : Level} (h : l ≠ .latch ∨ rises s.lines.latch v = false) :
    outputLatchAfter s l v = s.devQ := by
  rcases h with h | h <;> simp [outputLatchAfter, h]

@[simp] theorem shiftStageAfter_low (s : State) (l : Line) : shiftStageAfter s l .low = s.devS :=
  shiftStageAfter_eq_self (.inr (rises_to_low _))

@[simp] theorem outputLatchAfter_low (s : State) (l : Line) : outputLatchAfter s l .low = s.devQ :=
  outputLatchAfter_eq_self (.inr (rises_to_low _))

@[simp] theorem Level.bit_ofBit (b : Bool) : (Level.ofBit b).bit = b := by cases b <;> rfl

@[simp] theorem Level.ofBit_bit (v : Level) : Level.ofBit v.bit = v := by cases v <;> rfl

/-- The level `RW_DATA` writes is bit 7 of `sr` (R152). -/
theorem dataLevel_eq (v : Byte) : dataLevel v = Level.ofBit (v.getLsbD 7) := by
  revert v
  decide

@[simp] theorem menLine_ne_clock (c : Channel) : menLine c ≠ .clock := by cases c <;> decide

@[simp] theorem menLine_ne_latch (c : Channel) : menLine c ≠ .latch := by cases c <;> decide

end Sys2Proof.Machine
end

