-- ==== Sys2Proof/Laws/Step.lean ====
section
/-! SUPPORT. What the shared operations can do, said once: the presentation of a command, a micro-step, a step. -/

namespace Sys2Proof.Machine

/-- Everything the presentation of an instruction can do: nothing, the exception, the acceptance of `INIT`, of a direction,
or of a stop or shield command (R28(a), R215, R216). -/
theorem exec_next_cases {i : Instr} {s t : State} (h : exec i s = .next t) :
    t = s ∨
    (i = .init ∧ acceptsInit s = true ∧ s.cfg.gpioPresent = false ∧ t = raiseHardwareUnavailable s) ∨
    (i = .init ∧ acceptsInit s = true ∧ s.cfg.gpioPresent = true ∧ t = { s with opened := true, seq := .init 0 }) ∨
    (acceptsCommand s = true ∧ ∃ d, t = { s with mreg := s.cfg.dirMask d, seq := .arm .m1 }) ∨
    (acceptsCommand s = true ∧ i = .motorStop ∧ t = setSeq s (.stop .m1)) ∨
    (acceptsCommand s = true ∧ ∃ on, i = .setMotorShield on ∧ t = setSeq s (.shield on)) := by
  have dir : ∀ d, Host.Outcome.next (presentDirection d s) = (.next t : Host.Outcome State Fault Refusal) →
      t = s ∨ (acceptsCommand s = true ∧ ∃ d, t = { s with mreg := s.cfg.dirMask d, seq := .arm .m1 }) := by
    intro d h
    cases h
    unfold presentDirection
    split
    · exact .inr ⟨‹_›, d, rfl⟩
    · exact .inl rfl
  cases i with
  | init =>
    simp only [exec, execInit] at h
    split at h
    · split at h <;> cases h <;> simp_all
    · cases h; exact .inl rfl
  | setForward => rcases dir _ h with h | h <;> simp [h]
  | setBackward => rcases dir _ h with h | h <;> simp [h]
  | setTurnLeft => rcases dir _ h with h | h <;> simp [h]
  | setTurnRight => rcases dir _ h with h | h <;> simp [h]
  | motorStop =>
    simp only [exec, execMotorStop] at h
    cases h
    split <;> simp_all
  | setMotorShield on =>
    simp only [exec, execSetMotorShield] at h
    cases h
    split <;> simp_all
  | reserved1 => cases h; exact .inl rfl
  | reserved3 => cases h; exact .inl rfl
  | reserved5 => cases h; exact .inl rfl
  | reserved7 => cases h; exact .inl rfl
  | reserved9 => cases h; exact .inl rfl
  | reservedB => cases h; exact .inl rfl
  | reservedE arg => cases h; exact .inl rfl

/-- What a micro-step does to the fields that only some positions write. -/
theorem microStep_frame (s : State) :
    (microStep s).opened = s.opened ∧ (microStep s).faultHw = s.faultHw ∧ (microStep s).mreg = s.mreg ∧
    (microStep s).cfg = s.cfg ∧ (microStep s).inputs = s.inputs ∧ (microStep s).freeCount = s.freeCount := by
  unfold microStep
  cases s.seq <;> exact ⟨rfl, rfl, rfl, rfl, rfl, rfl⟩

@[simp] theorem microStep_seq (s : State) : (microStep s).seq = s.seq.successor := rfl

/-- Everything a step can do (R28, R213). -/
theorem step_next_cases {s t : State} (h : step s = .next t) :
    (stepCase s = .reset ∧ t = resetEvent (popInput s)) ∨
    (stepCase s = .micro ∧ t = microStep (popInput s)) ∨
    (stepCase s = .idle ∧ t = popInput s) ∨
    (∃ i, stepCase s = .command i ∧ exec i (popInput s) = .next t) := by
  unfold step at h
  split at h
  · cases h; exact .inl ⟨‹_›, rfl⟩
  · cases h; exact .inr (.inl ⟨‹_›, rfl⟩)
  · cases h; exact .inr (.inr (.inl ⟨‹_›, rfl⟩))
  · exact .inr (.inr (.inr ⟨_, ‹_›, h⟩))

/-- The micro case: a command is in flight and `rst` is low (R28(c)). -/
theorem stepCase_micro_iff (s : State) :
    stepCase s = .micro ↔ (presented s).rst = false ∧ s.seq ≠ .ready := by
  unfold stepCase
  cases h : (presented s).rst <;> by_cases hs : s.seq = .ready <;> simp [hs]
  cases (presented s).cmd <;> simp

/-- The command case: `READY`, `rst` low, a word presented (R28(a)). -/
theorem stepCase_command_iff (s : State) (i : Instr) :
    stepCase s = .command i ↔
      (presented s).rst = false ∧ s.seq = .ready ∧ ∃ w, (presented s).cmd = some w ∧ decode w = i := by
  unfold stepCase
  cases h : (presented s).rst <;> by_cases hs : s.seq = .ready <;> simp [hs]
  cases (presented s).cmd <;> simp

end Sys2Proof.Machine
end

