-- ==== Sys2Proof/Laws/Run.lean ====
section
/-! SUPPORT. Runs of several steps: the micro-steps of a command in flight do not look at the host's words, so `n` steps of
the machine are `n` micro-steps with `n` inputs taken off the list. -/

namespace Sys2Proof.Machine

@[simp] theorem run_zero (s : State) : run 0 s = .next s := rfl

/-- The host's run of one step more, for any machine. -/
theorem core_run_succ {M : Host.Core} {s t : M.State} (n : Nat) (h : M.step s = .next t) : M.run (n + 1) s = M.run n t := by
  rw [Host.Core.run, h]

/-- A run of one step more is a step and then the run. -/
theorem run_succ {s t : State} (n : Nat) (h : step s = .next t) : run (n + 1) s = run n t :=
  core_run_succ (M := Sys2Proof.core) n h

/-- With `rst` low and a command in flight, a step is a micro-step (R28(c)). -/
theorem step_micro {s : State} (h : NoResetNow s) (hs : s.seq ≠ .ready) : step s = .next (microStep (popInput s)) := by
  simp [step, (stepCase_micro_iff s).2 ⟨h, hs⟩]

theorem noReset_now {n : Nat} {s : State} (h : NoReset (n + 1) s) : NoResetNow s := by
  unfold NoReset at h
  unfold NoResetNow presented
  cases hi : s.inputs with
  | nil => rfl
  | cons a l => rw [hi] at h; exact h a (by simp)

theorem noReset_tail {n : Nat} {s t : State} (h : NoReset (n + 1) s) (ht : t.inputs = s.inputs.tail) : NoReset n t := by
  unfold NoReset at *
  rw [ht]
  cases hi : s.inputs with
  | nil => simp
  | cons a l => rw [hi] at h; intro x hx; exact h x (by simp; right; simpa using hx)

@[simp] theorem microStep_inputs (s : State) : (microStep s).inputs = s.inputs := (microStep_frame s).2.2.2.2.1

/-- A micro-step does not look at the inputs. -/
theorem microStep_with_inputs (s : State) (l : List HostInput) :
    microStep { s with inputs := l } = { microStep s with inputs := l } := by
  unfold microStep
  dsimp only
  cases s.seq <;> rfl

theorem microSteps_with_inputs (n : Nat) (s : State) (l : List HostInput) :
    microSteps n { s with inputs := l } = { microSteps n s with inputs := l } := by
  induction n generalizing s with
  | zero => rfl
  | succ n ih => simp only [microSteps]; rw [microStep_with_inputs, ih]

/-- Each micro-step leaves one step fewer (R28). -/
theorem remaining_successor (p : Seq) (hp : p ≠ .ready) : p.remaining = p.successor.remaining + 1 := by
  cases p with
  | ready => exact absurd rfl hp
  | init k => revert k; decide
  | arm c => cases c <;> rfl
  | rwLatchLo => rfl
  | rwData i => revert i; decide
  | rwClkHi i => revert i; decide
  | rwSettle i => revert i; decide
  | rwClkLo i => revert i; decide
  | rwLatchHi => rfl
  | rwRecord => rfl
  | shield on => rfl
  | stop c => cases c <;> rfl

/-- While a command is in flight and no reset comes, `n` steps are `n` micro-steps. -/
theorem run_eq_microSteps {n : Nat} {s : State} (hn : n ≤ s.seq.remaining) (hr : NoReset n s) :
    run n s = .next { microSteps n s with inputs := s.inputs.drop n } := by
  induction n generalizing s with
  | zero => rfl
  | succ n ih =>
    have hs : s.seq ≠ .ready := by
      intro e
      rw [e] at hn
      simp [Seq.remaining] at hn
    have hrem := remaining_successor _ hs
    have hpop : microStep (popInput s) = { microStep s with inputs := s.inputs.tail } := microStep_with_inputs _ _
    rw [run_succ n (step_micro (noReset_now hr) hs),
      ih (by simp only [microStep_seq, popInput_seq]; omega) (noReset_tail hr (by simp)), hpop, microSteps_with_inputs]
    simp [microSteps, List.drop_tail]

end Sys2Proof.Machine
end

