-- ==== Sys2Proof/Laws/Frame.lean ====
section
/-! SUPPORT. The bit cells of a frame (rules R102, R150 to R155, R78 of spec/), as equations of micro-steps. -/

namespace Sys2Proof.Machine

theorem microSteps_add (a b : Nat) (s : State) : microSteps (a + b) s = microSteps b (microSteps a s) := by
  induction a generalizing s with
  | zero => simp [microSteps]
  | succ a ih => rw [Nat.add_right_comm]; simp only [microSteps]; exact ih _

/-- One bit cell: the top bit of `sr` goes out on `DATA` and into the first stage of the device. -/
theorem microSteps_cell {s : State} {i : Fin 8} (hs : s.seq = .rwData i) (hc : s.lines.clock = .low) :
    microSteps 4 s =
      { s with
        lines := { s.lines with data := dataLevel s.sr }
        sr := shiftLeft s.sr
        trace := s.trace ++ bitCell (dataLevel s.sr)
        devS := shiftIn s.devS (s.sr.getLsbD 7)
        seq := if i = 7 then .rwLatchHi else .rwData (i + 1) } := by
  obtain ⟨⟨⟩⟩ := s
  simp only at hs hc
  subst hs hc
  simp [microSteps, microStep, action, setSeq, Seq.successor, doData, doClkHi, doClkLo, doSettle, settle, lineWrite,
    Lines.set, shiftStageAfter, outputLatchAfter, rises, bitCell, dataLevel_eq]

/-- One more clock edge: the stages hold the low bits of what was there and one more bit of the mask (R78). -/
theorem shiftIn_stage (old m : Byte) {j : Nat} (h : j < 8) :
    shiftIn ((old <<< j) ||| (m >>> (8 - j))) ((m <<< j).getLsbD 7) =
      (old <<< (j + 1)) ||| (m >>> (8 - (j + 1))) := by
  ext i hi
  simp [shiftIn]
  interval_cases j <;> interval_cases i <;> simp

/-- The first `j` bit cells of a frame, from any content of the device (R78). -/
theorem microSteps_cells {s : State} (hs : s.seq = .rwData 0) (hc : s.lines.clock = .low) (hsr : s.sr = s.mreg) :
    ∀ j, j ≤ 8 → microSteps (4 * j) s =
      { s with
        lines := { s.lines with data := if j = 0 then s.lines.data else bitLevel s.mreg (8 - j) }
        sr := s.mreg <<< j
        trace := s.trace ++ ([7, 6, 5, 4, 3, 2, 1, 0].take j).flatMap (fun k => bitCell (bitLevel s.mreg k))
        devS := (s.devS <<< j) ||| (s.mreg >>> (8 - j))
        seq := if h : j < 8 then .rwData ⟨j, h⟩ else .rwLatchHi } := by
  intro j
  induction j with
  | zero =>
    intro _
    obtain ⟨⟨⟩⟩ := s
    simp only at hs hsr
    subst hs hsr
    simp [microSteps]
    ext i hi
    simp
  | succ j ih =>
    intro hj
    have hj8 : j < 8 := by omega
    rw [Nat.mul_succ, microSteps_add, ih (by omega), microSteps_cell (i := ⟨j, hj8⟩) (by simp [hj8]) (by simp [hc])]
    obtain ⟨⟨⟩⟩ := s
    simp only at hs hc hsr ⊢
    subst hs hc hsr
    simp only [shiftIn_stage _ _ hj8, dataLevel_eq]
    interval_cases j <;> simp [bitLevel, shiftLeft, Level.ofBit]

end Sys2Proof.Machine
end

