-- ==== Sys2Proof/Laws/Masks.lean ====
section
/-! SUPPORT. The masks of table entries and the bytes that R106 of spec/ allows are the same things. -/

namespace Sys2Proof

/-- No entry's mask sets both bits of a channel (R106). -/
theorem DirEntry.maskLegal_mask (e : DirEntry) : maskLegal e.mask = true := by
  obtain ⟨a, b, c, d⟩ := e
  cases a <;> cases b <;> cases c <;> cases d <;> rfl

/-- An entry is read back from its mask. -/
@[simp] theorem DirEntry.ofMask_mask (e : DirEntry) : DirEntry.ofMask e.mask = e := by
  obtain ⟨a, b, c, d⟩ := e
  cases a <;> cases b <;> cases c <;> cases d <;> rfl

/-- Every legal byte is the mask of an entry (R106). -/
theorem DirEntry.mask_ofMask : ∀ m : Byte, maskLegal m = true → (DirEntry.ofMask m).mask = m := by
  decide

/-- What an accepted instance holds: the parameters it was given (R9). -/
theorem Config.check_ok {r : RawConfig} {c : Config} (h : Config.check r = .ok c) :
    c.wf ∧ (∀ d, maskLegal (r.dirMask d) = true ∧ c.dirEntry d = DirEntry.ofMask (r.dirMask d)) ∧
      c.lineId = r.lineId ∧ c.tSettle = r.tSettle ∧ c.gpioPresent = r.gpioPresent := by
  unfold Config.check at h
  split at h <;> try contradiction
  split at h <;> try contradiction
  split at h <;> try contradiction
  split at h <;> try contradiction
  split at h <;> try contradiction
  split at h <;> try contradiction
  rename_i hf hb hl hr hn hs
  cases h
  refine ⟨⟨not_not.mp hn, Nat.one_le_iff_ne_zero.mpr hs⟩, ?_, rfl, rfl, rfl⟩
  intro d
  cases d <;> simp_all [RawConfig.dirMask, Config.dirEntry]

end Sys2Proof
end

