-- ==== Sys2Proof/Laws/PerInstr.lean ====
section
/-! SUPPORT. What holds of every instruction as syntax, one lemma per constructor (rules R110 to R112 of spec/,
spec/opcode_table.json). -/

namespace Sys2Proof.Laws.CommandWord

/-- The instruction is well formed, its word matches its own row of the opcode table, and it is a reserved one exactly where
its word breaks a rule of R110: operation 7, or the argument bit set for an operation other than 6 (R112). -/
def Statement (i : Instr) : Prop :=
  i.wf = true ∧
    (opcodeTable[i.rowNumber.val]?).any (fun r => r.hits (encode i)) = true ∧
    (i.isReserved = true ↔ opField (encode i) = 7 ∨ (argField (encode i) = true ∧ opField (encode i) ≠ 6))

theorem init : Statement .init := by unfold Statement; decide
theorem setForward : Statement .setForward := by unfold Statement; decide
theorem setBackward : Statement .setBackward := by unfold Statement; decide
theorem setTurnLeft : Statement .setTurnLeft := by unfold Statement; decide
theorem setTurnRight : Statement .setTurnRight := by unfold Statement; decide
theorem motorStop : Statement .motorStop := by unfold Statement; decide
theorem setMotorShield (on : Bool) : Statement (.setMotorShield on) := by cases on <;> (unfold Statement; decide)
theorem reserved1 : Statement .reserved1 := by unfold Statement; decide
theorem reserved3 : Statement .reserved3 := by unfold Statement; decide
theorem reserved5 : Statement .reserved5 := by unfold Statement; decide
theorem reserved7 : Statement .reserved7 := by unfold Statement; decide
theorem reserved9 : Statement .reserved9 := by unfold Statement; decide
theorem reservedB : Statement .reservedB := by unfold Statement; decide
theorem reservedE (arg : Bool) : Statement (.reservedE arg) := by cases arg <;> (unfold Statement; decide)

end Sys2Proof.Laws.CommandWord
end

