-- ==== Sys2Proof/Tests/Slice0.lean ====
section
/-! SUPPORT. The model's own tests: words written out from the spec's encodings, the checks of an instance, single steps
whose results stand in spec/95_test_vectors.md (the row is named before each), and for every obligation with hypotheses a
concrete state and operands that meet them. -/

namespace Sys2Proof.Tests

open Sys2Proof.Machine

/-! Decoding (R110, R111, R112, V5). The word is written bit by bit, `cmd[3]` first: the operation, then the argument. -/

theorem test_decode_init : decode 0b0000 = .init := by decide
theorem test_decode_setForward : decode 0b0010 = .setForward := by decide
theorem test_decode_setBackward : decode 0b0100 = .setBackward := by decide
theorem test_decode_setTurnLeft : decode 0b0110 = .setTurnLeft := by decide
theorem test_decode_setTurnRight : decode 0b1000 = .setTurnRight := by decide
theorem test_decode_motorStop : decode 0b1010 = .motorStop := by decide
theorem test_decode_setMotorShield_false : decode 0b1100 = .setMotorShield false := by decide
theorem test_decode_setMotorShield_true : decode 0b1101 = .setMotorShield true := by decide
theorem test_decode_reserved1 : decode 0b0001 = .reserved1 := by decide
theorem test_decode_reserved3 : decode 0b0011 = .reserved3 := by decide
theorem test_decode_reserved5 : decode 0b0101 = .reserved5 := by decide
theorem test_decode_reserved7 : decode 0b0111 = .reserved7 := by decide
theorem test_decode_reserved9 : decode 0b1001 = .reserved9 := by decide
theorem test_decode_reservedB : decode 0b1011 = .reservedB := by decide
theorem test_decode_reservedE_low : decode 0b1110 = .reservedE false := by decide
theorem test_decode_reservedE_high : decode 0b1111 = .reservedE true := by decide

/-- A number with a bit above `cmd[3]` is refused by name. -/
theorem test_decode_five_bits : decodeBits 0b10010 = .error .notFourBits := by decide

/-! The instance: the reference masks of 95_test_vectors.md, and instances that R9, R106, R132 refuse. -/

def rawBench : RawConfig :=
  { forward := 0x39, backward := 0xC6, turnLeft := 0x27, turnRight := 0xD8, lineId := #v[2, 3, 5, 7, 11, 13, 17, 19],
    tSettle := 1, gpioPresent := true }

def bench : Config :=
  { forward := .forward, backward := .ofMask 0xC6, turnLeft := .ofMask 0x27, turnRight := .ofMask 0xD8,
    lineId := #v[2, 3, 5, 7, 11, 13, 17, 19], tSettle := 1, gpioPresent := true }

/-- R107, R108: the masks of the checked instance are the ones given. -/
theorem test_config_accepted :
    Config.check rawBench = .ok bench ∧ bench.dirMask .forward = 0x39 ∧ bench.dirMask .backward = 0xC6 ∧
      bench.dirMask .turnLeft = 0x27 ∧ bench.dirMask .turnRight = 0xD8 := ⟨rfl, by decide⟩

/-- V2.2: `0xFF` violates the constraint of R106. -/
theorem test_config_bothBits_forward : Config.check { rawBench with forward := 0xFF } = .error (.bothBits .forward) := rfl

/-- V2.6: `0xB0` has both bits of M3. -/
theorem test_config_bothBits_backward : Config.check { rawBench with backward := 0xB0 } = .error (.bothBits .backward) := rfl

/-- V2.2: `0xAA` has both bits of M3. -/
theorem test_config_bothBits_turnLeft : Config.check { rawBench with turnLeft := 0xAA } = .error (.bothBits .turnLeft) := rfl

/-- V2.2: `0x55` has both bits of M4. -/
theorem test_config_bothBits_turnRight :
    Config.check { rawBench with turnRight := 0x55 } = .error (.bothBits .turnRight) := rfl

/-- R9: eight distinct identifiers. -/
theorem test_config_lineId :
    Config.check { rawBench with lineId := #v[2, 3, 5, 7, 11, 13, 17, 2] } = .error .lineIdRepeated := rfl

/-- R132: "`T_SETTLE = 0` is not allowed". -/
theorem test_config_settle : Config.check { rawBench with tSettle := 0 } = .error .settleZero := rfl

/-- R100: every one of the eight bits is used exactly once. -/
theorem test_channel_bits_once :
    ∀ k : Fin 8, ((Channel.all.flatMap (fun c => [c.bitA, c.bitB])).filter (fun b => b.getLsbD k.val)).length = 1 := by
  decide

/-! States -/

/-- A state a reset leaves, with the device's content of P3: `S = 0xA5`, `Q = 0x5A`. -/
def fresh : State :=
  { lines := .allLow, enabled := false, lastMask := 0x00, opened := false, faultHw := false, seq := .ready, mreg := 0x00,
    sr := 0x00, trace := [], devS := 0xA5, devQ := 0x5A, cfg := bench, inputs := [], freeCount := 0 }

/-- The same, without a GPIO controller. -/
def bare : State := { fresh with cfg := { bench with gpioPresent := false } }

/-- After `INIT`. -/
def opened : State := { fresh with opened := true, trace := initTrace }

/-- `Running` after a directional command with the mask `m`, `d` the level of its bit 0 (V3.1). -/
def running (m : Byte) (d : Level) : State :=
  { fresh with
    lines := { latch := .high, clock := .low, data := d, regEnN := .low, men1 := .high, men2 := .high, men3 := .high, men4 := .high }
    enabled := true, lastMask := m, opened := true, mreg := m, trace := [.write .latch .high], devS := m, devQ := m }

/-- In the first frame, of the mask `0x39`, after `INIT`. -/
def framing (p : Seq) (clock data : Level) (sr stages : Byte) : State :=
  { fresh with
    lines := { latch := .low, clock := clock, data := data, regEnN := .low, men1 := .high, men2 := .high, men3 := .high, men4 := .high }
    opened := true, seq := p, mreg := 0x39, sr := sr, devS := stages }

/-! Line primitives (V1) and arithmetic (V2.1) -/

/-- V1.1. -/
theorem test_clock_rises :
    (lineWrite { fresh with lines := { Lines.allLow with data := .high }, devS := 0x1C, devQ := 0x00 } .clock .high).devS = 0x39 := by
  decide

/-- V1.2: bit 7 is discarded. -/
theorem test_clock_rises_data_low : (lineWrite { fresh with devS := 0xFF } .clock .high).devS = 0xFE := by decide

/-- V1.4: no edge, the event is still recorded. -/
theorem test_clock_stays_high :
    (lineWrite { fresh with lines := { Lines.allLow with clock := .high, data := .high }, devS := 0x39 } .clock .high).devS = 0x39 ∧
    (lineWrite { fresh with lines := { Lines.allLow with clock := .high } } .clock .high).trace = [.write .clock .high] := by
  decide

/-- V1.5. -/
theorem test_latch_rises : (lineWrite { fresh with devS := 0x39, devQ := 0xC6 } .latch .high).devQ = 0x39 := by decide

/-- V1.7: no edge. -/
theorem test_latch_stays_high :
    (lineWrite { fresh with lines := { Lines.allLow with latch := .high }, devS := 0x12, devQ := 0xC6 } .latch .high).devQ = 0xC6 := by
  decide

/-- V1.9. -/
theorem test_outputs_off :
    (lineWrite { fresh with devQ := 0x39 } .regEnN .high).devQ = 0x39 ∧
    (lineWrite { fresh with devQ := 0x39 } .regEnN .high).out = none := by
  decide

/-- V2.1, the rows `0x7F`, `0x80`, `0xC6`. -/
theorem test_shift_arithmetic :
    topBit 0x7F = 0x00 ∧ shiftLeft 0x7F = 0xFE ∧ topBit 0x80 = 0x80 ∧ shiftLeft 0x80 = 0x00 ∧
      topBit 0xC6 = 0x80 ∧ shiftLeft 0xC6 = 0x8C := by
  decide

/-- R21: `line_o` bit 0 is `LATCH`, bit 7 is `MEN4`. -/
theorem test_lineO :
    { fresh with lines := { Lines.allLow with latch := .high } }.lineO = 0x01 ∧
      { fresh with lines := { Lines.allLow with men4 := .high } }.lineO = 0x80 := by
  decide

/-- V2.6, the row `0xB0`: Coast, DirB, not defined, Coast. -/
theorem test_motorCondition_B0 :
    Channel.all.map { running 0x39 .high with devQ := 0xB0 }.motorCondition =
      [some .coast, some .dirB, none, some .coast] := by
  decide

/-! One step of each instruction -/

/-- V4.1: the acceptance of `INIT`. -/
theorem test_init_accepted :
    ∃ t, step (fresh.withFetchWord 4 0x0) = .next t ∧ t.opened = true ∧ t.seq = .init 0 ∧ t.trace = [] ∧ t.enabled = false :=
  ⟨_, rfl, by decide⟩

/-- V6.3. -/
theorem test_init_hardwareUnavailable :
    ∃ t, step (bare.withFetchWord 4 0x0) = .next t ∧ t.faultHw = true ∧ t.causeCode = 1 ∧ t.opened = false ∧
      t.seq = .ready ∧ t.trace = [] :=
  ⟨_, rfl, by decide⟩

/-- V3.2, V3.3. -/
theorem test_setForward : ∃ t, step (opened.withFetchWord 4 0x2) = .next t ∧ t.mreg = 0x39 ∧ t.seq = .arm .m1 :=
  ⟨_, rfl, by decide⟩

/-- V6.6: before `INIT`. -/
theorem test_setForward_before_init : ∃ t, step (fresh.withFetchWord 4 0x2) = .next t ∧ t.seq = .ready ∧ t.mreg = 0x00 :=
  ⟨_, rfl, by decide⟩

/-- V3.2. -/
theorem test_setBackward : ∃ t, step (opened.withFetchWord 4 0x4) = .next t ∧ t.mreg = 0xC6 ∧ t.seq = .arm .m1 :=
  ⟨_, rfl, by decide⟩

/-- V3.2. -/
theorem test_setTurnLeft : ∃ t, step (opened.withFetchWord 4 0x6) = .next t ∧ t.mreg = 0x27 ∧ t.seq = .arm .m1 :=
  ⟨_, rfl, by decide⟩

/-- V3.2. -/
theorem test_setTurnRight : ∃ t, step (opened.withFetchWord 4 0x8) = .next t ∧ t.mreg = 0xD8 ∧ t.seq = .arm .m1 :=
  ⟨_, rfl, by decide⟩

/-- V4.3: the first step. -/
theorem test_motorStop : ∃ t, step ((running 0x39 .high).withFetchWord 4 0xA) = .next t ∧ t.seq = .stop .m1 ∧ t.lastMask = 0x39 :=
  ⟨_, rfl, by decide⟩

/-- V6.7: `MOTOR_STOP` while a frame is in flight: the micro-step `RW_DATA(5)` executes instead. -/
theorem test_motorStop_busy :
    ∃ t, step { framing (.rwData 5) .low .high 0x20 0xA7 with inputs := [⟨false, some 0xA⟩] } = .next t ∧
      t.seq = .rwClkHi 5 ∧ t.sr = 0x40 ∧ t.lines.data = .low :=
  ⟨_, rfl, by decide⟩

/-- V4.8: acceptance and micro-step of `SET_MOTOR_SHIELD 0`. -/
theorem test_setMotorShield :
    (∃ t, step ((running 0x27 .high).withFetchWord 4 0xC) = .next t ∧ t.seq = .shield false) ∧
    ∃ t, step { running 0x27 .high with seq := .shield false } = .next t ∧
      t.lines.regEnN = .high ∧ t.enabled = false ∧ t.lastMask = 0x27 ∧ t.view = .other :=
  ⟨⟨_, rfl, by decide⟩, _, rfl, by decide⟩

/-- V6.9, and R112 for the other words: nothing changes. -/
theorem test_reserved :
    ∀ w ∈ [0x1, 0x3, 0x5, 0x7, 0x9, 0xB, 0xE, 0xF], step (opened.withFetchWord 4 w) = .next opened := by
  intro w hw
  simp only [List.mem_cons, List.not_mem_nil, or_false] at hw
  rcases hw with h | h | h | h | h | h | h | h <;> subst h <;> rfl

/-- V6.10: `rst` with a word. -/
theorem test_rst_wins :
    ∃ t, step { running 0x39 .high with inputs := [⟨true, some 0x2⟩] } = .next t ∧ t.lines = .allLow ∧ t.opened = false ∧
      t.lastMask = 0x00 ∧ t.devS = 0x39 ∧ t.devQ = 0x39 :=
  ⟨_, rfl, by decide⟩

/-! One step of each kind of micro-step -/

/-- V3.3: `ARM(4)`. -/
theorem test_arm :
    ∃ t, step { opened with seq := .arm .m4 } = .next t ∧ t.lines.men4 = .high ∧ t.seq = .rwLatchLo := ⟨_, rfl, by decide⟩

/-- V2.3, the row `i = 2`. -/
theorem test_rwData :
    ∃ t, step (framing (.rwData 2) .low .low 0xE4 0x94) = .next t ∧ t.lines.data = .high ∧ t.sr = 0xC8 ∧ t.seq = .rwClkHi 2 :=
  ⟨_, rfl, by decide⟩

/-- V2.4, from `RW_CLK_HI(2)`'s row to `RW_CLK_HI(3)`'s. -/
theorem test_rwClkHi :
    ∃ t, step (framing (.rwClkHi 3) .low .high 0x90 0x29) = .next t ∧ t.devS = 0x53 ∧ t.devQ = 0x5A := ⟨_, rfl, by decide⟩

/-- R155: after `RW_CLK_LO(7)`, `seq = RW_LATCH_HI`. -/
theorem test_rwClkLo :
    ∃ t, step (framing (.rwClkLo 7) .high .high 0x00 0x39) = .next t ∧ t.seq = .rwLatchHi ∧ t.lines.clock = .low :=
  ⟨_, rfl, by decide⟩

/-- V2.4, the last row. -/
theorem test_rwLatchHi :
    ∃ t, step (framing .rwLatchHi .low .high 0x00 0x39) = .next t ∧ t.devQ = 0x39 ∧ t.lastMask = 0x00 := ⟨_, rfl, by decide⟩

/-- R193: after `STOP(1)` in `Running`. -/
theorem test_stop :
    ∃ t, step { running 0x39 .high with seq := .stop .m1 } = .next t ∧ t.lines.men1 = .low ∧ t.lines.men2 = .high ∧
      t.enabled = true :=
  ⟨_, rfl, by decide⟩

/-- V2.5: the trace of a frame of `0x39`. -/
theorem test_frameTrace :
    (frameTrace 0x39).filter (fun e => e == .write .data .high || e == .write .data .low) =
      [.write .data .low, .write .data .low, .write .data .high, .write .data .high, .write .data .high, .write .data .low,
       .write .data .low, .write .data .high] ∧ (frameTrace 0x39).length = 34 := by
  decide

/-! States that meet the invariant -/

/-- At rest: after a reset, after the fault, after `INIT`, in `Running`. -/
theorem inv_at_rest :
    fresh.Inv ∧ ({ bare with faultHw := true } : State).Inv ∧ opened.Inv ∧ (running 0x39 .high).Inv := by
  refine ⟨?_, ?_, ?_, ?_⟩ <;> constructor <;> first
    | decide
    | trivial
    | exact .inr (by decide)
    | exact .inl ⟨by decide, .forward, by decide⟩
    | exact fun h => absurd h (by decide)

/-- In a frame: the first and the last bit cell, before the data bit and before the clock edge (V2.3, V2.4), the latch. -/
theorem inv_in_frame :
    (framing (.rwData 0) .low .low 0x39 0xA5).Inv ∧ (framing (.rwData 7) .low .low 0x80 0x9C).Inv ∧
      (framing (.rwClkHi 0) .low .low 0x72 0xA5).Inv ∧ (framing (.rwClkHi 7) .low .high 0x00 0x9C).Inv ∧
      (framing .rwLatchHi .low .high 0x00 0x39).Inv := by
  refine ⟨?_, ?_, ?_, ?_, ?_⟩ <;> constructor <;> first
    | decide
    | exact .inr (by decide)
    | exact fun _ => ⟨.forward, by decide⟩
    | (simp only [EnablesAt, ShifterAt, shifted, framing]; decide)

/-! Witnesses: for every obligation with hypotheses, values that meet all of them. `talk` is a host that presents a word at
every step, `rst` low. -/

def talk (w : Cmd) (s : State) : State := { s with inputs := List.replicate 46 ⟨false, some w⟩ }

theorem inv_inputs {s : State} (h : s.Inv) (l : List HostInput) : ({ s with inputs := l } : State).Inv := by
  cases h
  constructor <;> assumption

theorem witness_DecodeAndEncodeAgree :
    4 ≤ 8 ∧ decodeTableWord 4 0xF = some (.reservedE true) ∧ decodeTableWord 4 0x0 = some .init ∧
      16 ≤ 0x10 % 2 ^ 8 ∧ decodeTableWord 8 0x10 = none := by
  decide

theorem witness_ShieldOperandIsInverted : decode 0xD = .setMotorShield true ∧ decode 0xC = .setMotorShield false := by decide

theorem witness_StepPresentsTheDecodedCommand :
    (talk 0xA opened).seq = .ready ∧ (talk 0xA opened).inputs = ⟨false, some 0xA⟩ :: List.replicate 45 ⟨false, some 0xA⟩ ∧
      4 ≤ 4 := by
  decide

theorem witness_StepsThatPresentNothing :
    opened.seq = .ready ∧ presented opened = ⟨false, none⟩ ∧ (framing (.rwData 0) .low .low 0x39 0xA5).seq ≠ .ready := by
  decide

theorem witness_ResetWinsOverEverything :
    (presented { running 0x39 .high with inputs := [⟨true, some 0x2⟩] }).rst = true := by decide

theorem witness_InitRunsToItsEnd :
    (talk 0x2 fresh).seq = .ready ∧ (talk 0x2 fresh).faultHw = false ∧ (talk 0x2 fresh).cfg.gpioPresent = true ∧
      NoReset 8 (talk 0x2 fresh) := by
  unfold NoReset
  decide

theorem witness_InitWithoutControllerFaults :
    bare.seq = .ready ∧ bare.faultHw = false ∧ bare.cfg.gpioPresent = false := by decide

theorem witness_DirectionalCommandsRunToTheirEnd :
    (.setForward, .forward) ∈ directionalCommands ∧ (.setBackward, .backward) ∈ directionalCommands ∧
    (.setTurnLeft, .turnLeft) ∈ directionalCommands ∧ (.setTurnRight, .turnRight) ∈ directionalCommands ∧
    (talk 0xA opened).seq = .ready ∧ (talk 0xA opened).faultHw = false ∧ (talk 0xA opened).opened = true ∧
      (talk 0xA opened).lines.clock = .low ∧ NoReset 40 (talk 0xA opened) := by
  unfold NoReset
  decide

theorem witness_MotorStopRunsToItsEnd :
    (talk 0x2 (running 0x39 .high)).seq = .ready ∧ (talk 0x2 (running 0x39 .high)).faultHw = false ∧
      (talk 0x2 (running 0x39 .high)).opened = true ∧ NoReset 5 (talk 0x2 (running 0x39 .high)) := by
  unfold NoReset
  decide

theorem witness_SetMotorShieldRunsToItsEnd :
    (talk 0x2 opened).seq = .ready ∧ (talk 0x2 opened).faultHw = false ∧ (talk 0x2 opened).opened = true ∧
      NoReset 1 (talk 0x2 opened) := by
  unfold NoReset
  decide

theorem witness_NotAcceptedHasNoEffect :
    (framing (.rwData 0) .low .low 0x39 0xA5).seq ≠ .ready ∧ { bare with faultHw := true }.faultHw = true ∧
      (Instr.setForward ≠ .init ∧ fresh.opened = false) := by
  decide

theorem witness_PresentationFrame :
    (∃ t, exec .setForward opened = .next t ∧ t.mreg ≠ opened.mreg) ∧ (∃ t, exec .init fresh = .next t ∧ t ≠ fresh) ∧
      (∀ d, (Instr.init, d) ∉ directionalCommands) ∧ Instr.setForward ≠ .init :=
  ⟨⟨_, rfl, by decide⟩, ⟨_, rfl, fun h => absurd (congrArg State.opened h) (by decide)⟩, fun d => by cases d <;> decide, by decide⟩

theorem witness_LineWriteDoesItsPseudocode : Line.men2 ≠ .men1 := by decide

theorem witness_SettleOnlyRecords : Config.check rawBench = .ok bench := rfl

theorem witness_EnableStepsAscend :
    NoResetNow { opened with seq := .arm .m1 } ∧ NoResetNow { opened with seq := .arm .m4 } ∧
      NoResetNow { opened with seq := .stop .m1 } ∧ NoResetNow { opened with seq := .stop .m4 } := ⟨rfl, rfl, rfl, rfl⟩

theorem witness_InitStepsDriveLow :
    NoResetNow { opened with seq := .init 0 } ∧ NoResetNow { opened with seq := .init 7 } := ⟨rfl, rfl⟩

theorem witness_LatchLowStepLoadsTheMask :
    NoResetNow (framing .rwLatchLo .low .low 0x00 0xA5) ∧ (framing .rwLatchLo .low .low 0x00 0xA5).seq = .rwLatchLo :=
  ⟨rfl, rfl⟩

theorem witness_DataStepSendsTheBit :
    (∃ s : State, s.Inv ∧ NoResetNow s ∧ s.seq = .rwData 0) ∧ ∃ s : State, s.Inv ∧ NoResetNow s ∧ s.seq = .rwData 7 :=
  ⟨⟨_, inv_in_frame.1, rfl, rfl⟩, _, inv_in_frame.2.1, rfl, rfl⟩

theorem witness_ClockHighStepShiftsTheDevice :
    (∃ s : State, s.Inv ∧ NoResetNow s ∧ s.seq = .rwClkHi 0) ∧ ∃ s : State, s.Inv ∧ NoResetNow s ∧ s.seq = .rwClkHi 7 :=
  ⟨⟨_, inv_in_frame.2.2.1, rfl, rfl⟩, _, inv_in_frame.2.2.2.1, rfl, rfl⟩

theorem witness_SettleStepOnlyWaits :
    NoResetNow (framing (.rwSettle 7) .high .high 0x00 0x39) ∧
      (framing (.rwSettle 7) .high .high 0x00 0x39).seq = .rwSettle 7 := ⟨rfl, rfl⟩

theorem witness_ClockLowStepMovesOn :
    NoResetNow (framing (.rwClkLo 6) .high .low 0x80 0x9C) ∧ NoResetNow (framing (.rwClkLo 7) .high .high 0x00 0x39) :=
  ⟨rfl, rfl⟩

theorem witness_LatchHighStepPresentsTheMask : ∃ s : State, s.Inv ∧ NoResetNow s ∧ s.seq = .rwLatchHi :=
  ⟨_, inv_in_frame.2.2.2.2, rfl, rfl⟩

theorem witness_RecordStepKeepsTheOriginalMask :
    NoResetNow { running 0x39 .high with seq := .rwRecord } ∧ { running 0x39 .high with seq := .rwRecord }.seq = .rwRecord :=
  ⟨rfl, rfl⟩

theorem witness_ShieldStepWritesLineAndFlag :
    NoResetNow { opened with seq := .shield true } ∧ NoResetNow { opened with seq := .shield false } := ⟨rfl, rfl⟩

/-- A writing position, the settle position, a position that neither writes nor waits. -/
theorem witness_StepWritesAtMostOneLine :
    (∃ t, step { opened with seq := .arm .m4 } = .next t ∧ (Seq.arm .m4).lineWritten = some .men4 ∧
      (Seq.arm .m4).lineWritten ≠ some .men1) ∧
    (∃ t, step (framing (.rwSettle 0) .high .low 0x72 0x4A) = .next t ∧ (Seq.rwSettle 0).lineWritten = none) ∧
    ∃ t, step { running 0x39 .high with seq := .rwRecord } = .next t ∧ Seq.rwRecord.lineWritten = none :=
  ⟨⟨_, rfl, by decide⟩, ⟨_, rfl, by decide⟩, _, rfl, by decide⟩

theorem witness_EveryCommandReturnsToReady : NoReset 40 (talk 0xA { opened with seq := .arm .m1 }) ∧ 39 < 40 := by
  unfold NoReset
  decide

/-- Each of the three outcomes: a reset, the micro-step, any other step. -/
theorem witness_OnlyShieldWritesEnabled :
    (∃ t, step { opened with inputs := [⟨true, none⟩] } = .next t) ∧
    (∃ t, step { opened with seq := .shield true } = .next t ∧ t.enabled = true) ∧ ∃ t, step opened = .next t :=
  ⟨⟨_, rfl⟩, ⟨_, rfl, rfl⟩, _, rfl⟩

theorem witness_OnlyRecordWritesLastMask :
    (∃ t, step { running 0x39 .high with inputs := [⟨true, none⟩] } = .next t ∧ t.lastMask = 0x00) ∧
    (∃ t, step { running 0x39 .high with seq := .rwRecord, mreg := 0xC6 } = .next t ∧ t.lastMask = 0xC6) ∧
    ∃ t, step (running 0x39 .high) = .next t ∧ t.lastMask = 0x39 :=
  ⟨⟨_, rfl, rfl⟩, ⟨_, rfl, rfl⟩, _, rfl, rfl⟩

theorem witness_OnlyInitOpens :
    (∃ t, step (talk 0x2 opened) = .next t ∧ NoResetNow (talk 0x2 opened) ∧ opened.opened = true) ∧
    ∃ t, step (talk 0x0 fresh) = .next t ∧ NoResetNow (talk 0x0 fresh) ∧ fresh.opened = false ∧ t.opened = true :=
  ⟨⟨_, rfl, rfl, rfl⟩, _, rfl, rfl, rfl, rfl⟩

theorem witness_OnlyInitRaisesTheFault :
    (∃ t, step (talk 0x0 { bare with faultHw := true }) = .next t ∧ t.faultHw = true) ∧
    ∃ t, step (talk 0x0 bare) = .next t ∧ NoResetNow (talk 0x0 bare) ∧ bare.faultHw = false ∧ t.faultHw = true :=
  ⟨⟨_, rfl, rfl⟩, _, rfl, rfl, rfl, rfl⟩

theorem witness_DeviceMovesOnlyOnItsEdges :
    (∃ t, step (framing .rwLatchHi .low .high 0x00 0x39) = .next t ∧ t.devQ ≠ 0x5A) ∧
    ∃ t, step (framing (.rwClkHi 3) .low .high 0x90 0x29) = .next t ∧ t.devS ≠ 0x29 :=
  ⟨⟨_, rfl, by decide⟩, _, rfl, by decide⟩

theorem witness_ParametersNeverChange : ∃ t, run 2 (talk 0x0 fresh) = .next t := ⟨_, rfl⟩

theorem witness_StatusBitsSteerNothing : ∃ t, step (talk 0x2 (running 0x39 .high)) = .next t ∧ t.seq = .arm .m1 := ⟨_, rfl, rfl⟩

theorem witness_DeviceIsNeverRead : ∃ t, run 2 (framing (.rwClkHi 3) .low .high 0x90 0x29) = .next t ∧ t.seq = .rwClkLo 3 :=
  ⟨_, rfl, rfl⟩

theorem witness_FrameFillsTheDevice :
    (talk 0xA (framing .rwLatchLo .low .low 0x00 0xA5)).seq = .rwLatchLo ∧
      (talk 0xA (framing .rwLatchLo .low .low 0x00 0xA5)).lines.clock = .low ∧
      NoReset 34 (talk 0xA (framing .rwLatchLo .low .low 0x00 0xA5)) ∧ 0 ≤ 8 ∧ 8 ≤ 8 := by
  unfold NoReset
  decide

theorem fresh_afterReset : fresh.AfterReset := by
  unfold State.AfterReset
  decide

/-- The words of P1's first two commands, presented while `READY`: 1 + 8 + 1 + 40 steps from a reset, the shortest run that
completes a frame. -/
def firstFrame : State :=
  { fresh with inputs := ⟨false, some 0x0⟩ :: List.replicate 8 ⟨false, none⟩ ++ [⟨false, some 0x2⟩] }

theorem firstFrame_runs : ∃ t, run 50 firstFrame = .next t ∧ t.seq = .ready ∧ t.latched = true := ⟨_, rfl, by decide⟩

theorem witness_DeviceHoldsLastMask :
    firstFrame.AfterReset ∧ ∃ t, run 50 firstFrame = .next t ∧ t.seq = .ready ∧ t.latched = true :=
  ⟨fresh_afterReset, firstFrame_runs⟩

theorem witness_ReadyLinesAtRest :
    firstFrame.AfterReset ∧ (∃ t, run 50 firstFrame = .next t ∧ t.seq = .ready ∧ t.lines.latch = .high) ∧
      ∃ t, run 0 firstFrame = .next t ∧ t.seq = .ready ∧ t.lines.latch = .low :=
  ⟨fresh_afterReset, ⟨_, rfl, by decide⟩, _, rfl, by decide⟩

theorem witness_ResetMeetsTheInvariant : fresh.AfterReset := fresh_afterReset

theorem witness_StepKeepsTheInvariant : (∃ s t : State, s.Inv ∧ step s = .next t ∧ s.seq = .rwLatchHi) :=
  ⟨_, _, inv_in_frame.2.2.2.2, rfl, rfl⟩

theorem witness_FaultLastsUntilReset :
    (talk 0x0 { bare with faultHw := true }).Inv ∧ (talk 0x0 { bare with faultHw := true }).faultHw = true ∧
      NoReset 46 (talk 0x0 { bare with faultHw := true }) :=
  ⟨inv_inputs inv_at_rest.2.1 _, rfl, by unfold NoReset; decide⟩

theorem witness_NoControllerNoLineMoves :
    (talk 0x0 { bare with faultHw := true }).Inv ∧ bare.cfg.gpioPresent = false ∧
      ∃ t, run 1 (talk 0x0 { bare with faultHw := true }) = .next t :=
  ⟨inv_inputs inv_at_rest.2.1 _, rfl, _, rfl⟩

theorem witness_InstanceCheckIsExact :
    Config.check rawBench = .ok bench ∧ ∀ c, Config.check { rawBench with forward := 0xFF } ≠ .ok c :=
  ⟨rfl, fun _ h => by cases h⟩

theorem witness_StatusShowsTheRegisters :
    (∃ t, step { running 0x39 .high with seq := .rwRecord, mreg := 0xC6 } = .next t ∧ Seq.rwRecord.transmitting = true) ∧
    ∃ t, step (framing .rwLatchHi .low .high 0x00 0x39) = .next t ∧ Seq.rwLatchHi.transmitting = true ∧
      Seq.rwLatchHi ≠ .rwRecord :=
  ⟨⟨_, rfl, rfl⟩, _, rfl, rfl, by decide⟩

theorem witness_OutputEnableGatesTheOutputs :
    fresh.lines.regEnN = .low ∧ { fresh.lines with regEnN := .high }.regEnN = .high := by decide

/-- The channels of `Q = 0xB0` and of `Q = 0xC6` (V2.6), and an unpowered channel. -/
theorem witness_MotorConditionAsTabled :
    fresh.men .m1 = .low ∧ (running 0xB0 .low).men .m1 = .high ∧ (running 0xB0 .low).lines.regEnN = .low ∧
    (0xB0 &&& Channel.m1.bitA = 0 ∧ 0xB0 &&& Channel.m1.bitB = 0) ∧
    (0xC6 &&& Channel.m1.bitA ≠ 0 ∧ 0xC6 &&& Channel.m1.bitB = 0) ∧
    (0xB0 &&& Channel.m2.bitA = 0 ∧ 0xB0 &&& Channel.m2.bitB ≠ 0) ∧
    (0xB0 &&& Channel.m3.bitA ≠ 0 ∧ 0xB0 &&& Channel.m3.bitB ≠ 0) := by
  decide

theorem witness_MotorsOffAfterReset :
    ∃ t, (presented { running 0x39 .high with inputs := [⟨true, none⟩] }).rst = true ∧
      step { running 0x39 .high with inputs := [⟨true, none⟩] } = .next t := ⟨_, rfl, rfl⟩

theorem witness_ViewAsTabled :
    (framing .rwLatchHi .low .high 0x00 0x39).view = .transmitting ∧ fresh.view = .idle ∧
      (running 0x39 .high).view = .running ∧ { opened with enabled := true }.view = .other ∧ fresh.AfterReset :=
  ⟨by decide, by decide, by decide, by decide, fresh_afterReset⟩

theorem witness_FrameIsTransmittingWithEnablesHigh :
    ∃ s : State, s.Inv ∧ s.seq.transmitting = true ∧ s.seq.shifterBusy = true := ⟨_, inv_in_frame.1, rfl, rfl⟩

theorem witness_CommandsAreIdempotent :
    Instr.setForward.isReserved = false ∧ (running 0x39 .high).Inv ∧ (running 0x39 .high).seq = .ready ∧
      (running 0x39 .high).faultHw = false ∧ (running 0x39 .high).opened = true :=
  ⟨rfl, inv_at_rest.2.2.2, rfl, rfl, rfl⟩

theorem witness_HeldStopStopsTheMotors :
    (talk 0xA (framing (.rwData 0) .low .low 0x39 0xA5)).Inv ∧
      (talk 0xA (framing (.rwData 0) .low .low 0x39 0xA5)).opened = true ∧
      (∀ inp ∈ (talk 0xA (framing (.rwData 0) .low .low 0x39 0xA5)).inputs.take 46, inp = ⟨false, some 0xA⟩) ∧
      46 ≤ (talk 0xA (framing (.rwData 0) .low .low 0x39 0xA5)).inputs.length :=
  ⟨inv_inputs inv_in_frame.1 _, rfl, by decide, by decide⟩

/-- The words of P4 after its `INIT`. -/
theorem witness_HandshakeRunsEveryList :
    opened.Inv ∧ opened.opened = true ∧ ∀ w ∈ ([0xD, 0x6, 0xC, 0xA] : List Cmd), (decode w).isReserved = false :=
  ⟨inv_at_rest.2.2.1, rfl, by decide⟩

end Sys2Proof.Tests
end

/-! SUPPORT. The command word, said once: what decoding does after encoding, and what a placed word presents. -/

namespace Sys2Proof

/-- Every instruction is read back from its word (R111, R112). -/
@[simp] theorem decode_encode (i : Instr) : decode (encode i) = i := by
  cases i with
  | setMotorShield on => cases on <;> rfl
  | reservedE arg => cases arg <;> rfl
  | _ => rfl

/-- A command word is read back from its number (R110). -/
@[simp] theorem cmdOfBits_toNat (w : Cmd) : cmdOfBits w.toNat = .ok w := by
  simp [cmdOfBits, w.isLt]

/-- Four bits and more hold every command word. -/
theorem cmd_toNat_mod {nbits : Nat} (h : 4 ≤ nbits) (w : Cmd) : w.toNat % 2 ^ nbits = w.toNat :=
  Nat.mod_eq_of_lt (w.isLt.trans_le (Nat.pow_le_pow_right (by decide) h))

namespace Machine

@[simp] theorem inputOfBits_toNat (w : Cmd) : inputOfBits w.toNat = { rst := false, cmd := some w } := by
  simp [inputOfBits]

/-- Placing a word of four bits or more puts it first, with no command in flight. -/
theorem withFetchWord_toNat {nbits : Nat} (h : 4 ≤ nbits) (s : State) (w : Cmd) :
    s.withFetchWord nbits w.toNat = placeInput s { rst := false, cmd := some w } := by
  simp [State.withFetchWord, cmd_toNat_mod h]

end Machine

end Sys2Proof

/-! SUPPORT. The conditions of acceptance as conditions on the fields, and what a step can do when `rst` is low. -/

namespace Sys2Proof.Machine

@[simp] theorem State.ready_iff (s : State) : s.ready = true ↔ s.seq = .ready := by
  simp [State.ready]

/-- Checks (2) and (3) of R213. -/
theorem acceptsInit_iff (s : State) : acceptsInit s = true ↔ s.seq = .ready ∧ s.faultHw = false := by
  simp [acceptsInit]

/-- Checks (2), (3) and (5) of R213. -/
theorem acceptsCommand_iff (s : State) :
    acceptsCommand s = true ↔ s.seq = .ready ∧ s.faultHw = false ∧ s.opened = true := by
  simp [acceptsCommand, and_assoc]

/-- What stands first in the list is presented. -/
theorem presented_of_inputs {s : State} {inp : HostInput} {rest : List HostInput} (h : s.inputs = inp :: rest) :
    presented s = inp := by
  simp [presented, h]

theorem noResetNow_of_inputs {s : State} {cmd : Option Cmd} {rest : List HostInput} (h : s.inputs = ⟨false, cmd⟩ :: rest) :
    NoResetNow s := by
  simp [NoResetNow, presented_of_inputs h]

/-- In `READY`, with `rst` low and a word presented, a step is the presentation of the decoded word (R28(a)). -/
theorem step_command {s : State} {w : Cmd} {rest : List HostInput} (hs : s.seq = .ready)
    (h : s.inputs = ⟨false, some w⟩ :: rest) : step s = exec (decode w) { s with inputs := rest } := by
  have hcase : stepCase s = .command (decode w) :=
    (stepCase_command_iff s _).2 ⟨noResetNow_of_inputs h, hs, w, by rw [presented_of_inputs h], rfl⟩
  have hpop : popInput s = { s with inputs := rest } := by simp [popInput, h]
  simp [step, hcase, hpop]

/-- A presentation always answers a next state (R131, R211). -/
theorem exec_answers (i : Instr) (s : State) : ∃ t, exec i s = .next t := by
  cases i with
  | init =>
    simp only [exec, execInit]
    split
    · split <;> exact ⟨_, rfl⟩
    · exact ⟨_, rfl⟩
  | _ => exact ⟨_, rfl⟩

/-- A presentation writes no line and records no event (R28(a)). -/
theorem exec_lines_trace {i : Instr} {s t : State} (h : exec i s = .next t) :
    t.lines = s.lines ∧ t.trace = s.trace := by
  rcases exec_next_cases h with rfl | ⟨-, -, -, rfl⟩ | ⟨-, -, -, rfl⟩ | ⟨-, d, rfl⟩ | ⟨-, -, rfl⟩ | ⟨-, on, -, rfl⟩ <;>
    exact ⟨rfl, rfl⟩

/-- The reset case: `rst` is high (R213 (1)). -/
theorem stepCase_reset_iff (s : State) : stepCase s = .reset ↔ (presented s).rst = true := by
  unfold stepCase
  cases (presented s).rst <;> by_cases hs : s.seq = .ready <;> simp [hs]
  cases (presented s).cmd <;> simp

/-- Without `rst` a step is the micro-step of the command in flight, or it is taken in `READY` and leaves the lines and the
trace alone (R28). -/
theorem step_next_cases_of_noReset {s t : State} (hr : NoResetNow s) (h : step s = .next t) :
    (s.seq ≠ .ready ∧ t = microStep (popInput s)) ∨ (s.seq = .ready ∧ t.lines = s.lines ∧ t.trace = s.trace) := by
  by_cases hs : s.seq = .ready
  · right
    rcases step_next_cases h with ⟨hc, -⟩ | ⟨hc, -⟩ | ⟨-, rfl⟩ | ⟨i, -, hx⟩
    · exact absurd ((stepCase_reset_iff s).1 hc) (by simp [show (presented s).rst = false from hr])
    · exact absurd hs ((stepCase_micro_iff s).1 hc).2
    · exact ⟨hs, rfl, rfl⟩
    · exact ⟨hs, by simpa using exec_lines_trace hx⟩
  · left
    rw [step_micro hr hs] at h
    cases h
    exact ⟨hs, rfl⟩

/-! The line each position writes (R28(c)) -/

theorem microStep_lines (s : State) : (microStep s).lines = (action s.seq s).lines := rfl

theorem microStep_trace (s : State) : (microStep s).trace = (action s.seq s).trace := rfl

/-- The action of a position that writes a line writes a level to that line and records it. -/
theorem action_writes_line {p : Seq} {l : Line} (h : p.lineWritten = some l) (s : State) :
    ∃ v, (action p s).lines = s.lines.set l v ∧ (action p s).trace = s.trace ++ [.write l v] := by
  cases p with
  | ready | rwSettle _ | rwRecord => cases h
  | _ => cases h; exact ⟨_, rfl, rfl⟩

/-- The action of a position that writes no line leaves the lines alone and records at most the settle event. -/
theorem action_writes_no_line {p : Seq} (h : p.lineWritten = none) (s : State) :
    (action p s).lines = s.lines ∧
      (action p s).trace = s.trace ++ (if ∃ i, p = .rwSettle i then [.settle] else []) := by
  cases p with
  | ready => simp [action]
  | rwSettle i => simp [action, doSettle]
  | rwRecord => simp [action, doRecord]
  | _ => cases h

/-! The handshake (R113, R226) -/

/-- No command takes more than 40 micro-steps (R28, R253). -/
theorem Seq.remaining_le (p : Seq) : p.remaining ≤ 40 := by
  cases p with
  | arm c => cases c <;> simp [Seq.remaining]
  | stop c => cases c <;> simp [Seq.remaining]
  | _ => simp only [Seq.remaining]; omega

theorem Seq.remaining_eq_zero {p : Seq} (h : p.remaining = 0) : p = .ready := by
  by_contra hp
  have := remaining_successor p hp
  omega

/-- An unreserved word is accepted in `READY` once opened (R28(a)). -/
theorem accepts_of_ready {s : State} {w : Cmd} (hs : s.seq = .ready) (hf : s.faultHw = false) (ho : s.opened = true)
    (hw : (decode w).isReserved = false) : accepts s w = true := by
  unfold accepts
  split
  · exact (acceptsInit_iff s).2 ⟨hs, hf⟩
  · simp [hw, (acceptsCommand_iff s).2 ⟨hs, hf, ho⟩]

/-- No word is accepted while a command is in flight (R213 (2)). -/
theorem accepts_of_busy {s : State} (hs : s.seq ≠ .ready) (w : Cmd) : accepts s w = false := by
  have hi : acceptsInit s = false := by simpa [hs] using (acceptsInit_iff s).not
  have hc : acceptsCommand s = false := by simpa [hs] using (acceptsCommand_iff s).not
  unfold accepts
  split <;> simp [hi, hc]

/-- While a command is in flight, the host waits and the machine takes its micro-step. -/
theorem HostRun.step_busy (cmds : List Cmd) {s : State} (hs : s.seq ≠ .ready) :
    HostRun.step ⟨cmds, s⟩ = ⟨cmds, { microStep s with inputs := [] }⟩ := by
  have hstep : Machine.step { s with inputs := [⟨false, cmds.head?⟩] } = .next { microStep s with inputs := [] } := by
    rw [step_micro (noResetNow_of_inputs (by rfl)) (by exact hs)]
    exact congrArg _ (microStep_with_inputs s [])
  unfold HostRun.step
  rw [hstep]
  cases cmds <;> simp [accepts_of_busy hs]

/-- In `READY`, a word that is accepted leaves the list and the machine presents it. -/
theorem HostRun.step_accept {w : Cmd} (rest : List Cmd) {s t : State} (hs : s.seq = .ready) (ha : accepts s w = true)
    (hx : exec (decode w) { s with inputs := [] } = .next t) : HostRun.step ⟨w :: rest, s⟩ = ⟨rest, t⟩ := by
  have hstep : Machine.step { s with inputs := [⟨false, some w⟩] } = .next t := by
    rw [step_command (by exact hs) (by rfl)]
    exact hx
  unfold HostRun.step
  simp [hstep, ha]

/-- What the handshake needs of a run and keeps: an opened machine with its controller and no fault, and a list without
reserved words. -/
structure HostRun.Serving (r : HostRun) : Prop where
  opened : r.machine.opened = true
  noFault : r.machine.faultHw = false
  present : r.machine.cfg.gpioPresent = true
  unreserved : ∀ w ∈ r.pending, (decode w).isReserved = false

/-- A bound on the steps left: for each pending command its acceptance and at most 40 micro-steps, and the micro-steps of
the command in flight. -/
def HostRun.left (r : HostRun) : Nat := 41 * r.pending.length + r.machine.seq.remaining

/-- With a controller present, a presentation keeps an opened machine opened and without a fault (R190, R217). -/
theorem exec_keeps_opened {i : Instr} {s t : State} (ho : s.opened = true) (hf : s.faultHw = false)
    (hg : s.cfg.gpioPresent = true) (h : exec i s = .next t) :
    t.opened = true ∧ t.faultHw = false ∧ t.cfg.gpioPresent = true := by
  rcases exec_next_cases h with
    rfl | ⟨-, -, hg', -⟩ | ⟨-, -, -, rfl⟩ | ⟨-, d, rfl⟩ | ⟨-, -, rfl⟩ | ⟨-, on, -, rfl⟩
  · exact ⟨ho, hf, hg⟩
  · simp [hg] at hg'
  · exact ⟨rfl, hf, hg⟩
  · exact ⟨ho, hf, hg⟩
  · exact ⟨ho, hf, hg⟩
  · exact ⟨ho, hf, hg⟩

/-- Each step of the handshake keeps what it needs and leaves fewer steps, until the run has ended well. -/
theorem HostRun.Serving.progress {r : HostRun} (h : r.Serving) :
    r.ended = true ∨ (r.step.Serving ∧ r.step.left < r.left) := by
  obtain ⟨cmds, s⟩ := r
  obtain ⟨ho, hf, hg, hw⟩ := h
  simp only at ho hf hg hw
  by_cases hs : s.seq = .ready
  · cases cmds with
    | nil => exact .inl (by simp [HostRun.ended, hs, hf])
    | cons w rest =>
      obtain ⟨t, hx⟩ := exec_answers (decode w) { s with inputs := [] }
      obtain ⟨ho', hf', hg'⟩ := exec_keeps_opened (by exact ho) (by exact hf) (by exact hg) hx
      have hle := t.seq.remaining_le
      rw [HostRun.step_accept rest hs (accepts_of_ready hs hf ho (hw w List.mem_cons_self)) hx]
      refine .inr ⟨⟨ho', hf', hg', fun v hv => hw v (List.mem_cons_of_mem _ hv)⟩, ?_⟩
      simp only [HostRun.left, List.length_cons]
      omega
  · obtain ⟨ho', hf', -, hcfg, -, -⟩ := microStep_frame s
    have hrem := remaining_successor _ hs
    rw [HostRun.step_busy cmds hs]
    refine .inr ⟨⟨ho'.trans ho, hf'.trans hf, (congrArg Config.gpioPresent hcfg).trans hg, hw⟩, ?_⟩
    simp only [HostRun.left, microStep_seq]
    omega

/-- The handshake ends well within the steps left. -/
theorem HostRun.Serving.ends {n : Nat} {r : HostRun} (h : r.Serving) (hn : r.left ≤ n) :
    ∃ k, k ≤ n ∧ (HostRun.steps k r).ended = true := by
  induction n generalizing r with
  | zero =>
    rcases h.progress with he | ⟨-, hlt⟩
    · exact ⟨0, le_rfl, he⟩
    · omega
  | succ n ih =>
    rcases h.progress with he | ⟨h', hlt⟩
    · exact ⟨0, Nat.zero_le _, he⟩
    · obtain ⟨k, hk, he⟩ := ih h' (by omega)
      exact ⟨k + 1, Nat.succ_le_succ hk, he⟩

/-- An opened machine that meets the invariant has its controller and no fault (R24, R210). -/
theorem State.Inv.serving {s : State} (hi : s.Inv) (ho : s.opened = true) {cmds : List Cmd}
    (hw : ∀ w ∈ cmds, (decode w).isReserved = false) : HostRun.Serving ⟨cmds, s⟩ := by
  have hg := hi.openedPresent ho
  have hf : s.faultHw = false := by
    by_contra hf
    simp [hi.faultAbsent (by simpa using hf)] at hg
  exact ⟨ho, hf, hg, hw⟩

end Sys2Proof.Machine

/-! SUPPORT. The check of the parameters (R9, R106, R132). -/

namespace Sys2Proof

/-- A mask is legal when no channel has both its bits (R106). -/
theorem maskLegal_iff (m : Byte) : maskLegal m = true ↔ ∀ c : Channel, m &&& c.bitA = 0 ∨ m &&& c.bitB = 0 := by
  constructor
  · intro h c
    have hc : maskLegalAt m c = true := List.all_eq_true.1 h c (by cases c <;> simp [Channel.all])
    simpa [maskLegalAt] using hc
  · intro h
    exact List.all_eq_true.2 fun c _ => by simpa [maskLegalAt] using h c

/-- Parameters that meet the constraints are accepted (R9, R106, R132). -/
theorem Config.check_accepts {r : RawConfig} (hm : ∀ d, maskLegal (r.dirMask d) = true) (hn : r.lineId.toList.Nodup)
    (ht : 1 ≤ r.tSettle) : ∃ c, Config.check r = .ok c := by
  have hf : maskLegal r.forward = true := hm .forward
  have hb : maskLegal r.backward = true := hm .backward
  have hl : maskLegal r.turnLeft = true := hm .turnLeft
  have hr : maskLegal r.turnRight = true := hm .turnRight
  simp [Config.check, hf, hb, hl, hr, hn, Nat.one_le_iff_ne_zero.1 ht]

/-- An accepted configuration has the masks it was given (R9). -/
theorem Config.dirMask_of_check {r : RawConfig} {c : Config} (h : Config.check r = .ok c) (d : Dir) :
    c.dirMask d = r.dirMask d := by
  obtain ⟨-, hd, -⟩ := Config.check_ok h
  obtain ⟨hm, he⟩ := hd d
  rw [Config.dirMask, he, DirEntry.mask_ofMask _ hm]

end Sys2Proof

/-! PROOFS. The statements of the family 00_scope. -/

namespace Sys2Proof.Machine

/-- Settles O60: the bound on the steps left falls with every step until the run has ended well. -/
theorem handshakeRunsEveryList : Obligations.HandshakeRunsEveryList := by
  intro cmds s hi ho hw
  have hrem := s.seq.remaining_le
  exact (hi.serving ho hw).ends (by simp only [HostRun.left]; omega)

/-- Settles O30, by what a step without `rst` can do and the line its position names. -/
theorem stepWritesAtMostOneLine : Obligations.StepWritesAtMostOneLine := by
  intro s t hr h
  rcases step_next_cases_of_noReset hr h with ⟨-, rfl⟩ | ⟨hs, hl, ht⟩
  · rw [microStep_lines, microStep_trace, popInput_seq]
    cases hp : s.seq.lineWritten with
    | none =>
      obtain ⟨hl, ht⟩ := action_writes_no_line hp (popInput s)
      exact ⟨fun l _ => by rw [hl, popInput_lines], by simp, fun _ => ht⟩
    | some k =>
      obtain ⟨v, hl, ht⟩ := action_writes_line hp (popInput s)
      rw [hl, ht, popInput_lines, popInput_trace]
      refine ⟨fun l hne => Lines.get_set_other _ _ fun e => hne (congrArg some e.symm), fun l he => ?_, by simp⟩
      cases he
      rw [Lines.get_set_same]
  · simp [hs, hl, ht, Seq.lineWritten]

/-- Settles O50: the constraints are what the check looks at, and the masks are read back. -/
theorem instanceCheckIsExact : Obligations.InstanceCheckIsExact := by
  intro r
  refine ⟨⟨fun ⟨c, h⟩ => ?_, fun ⟨hm, hn, ht⟩ => ?_⟩, fun c h => ?_⟩
  · obtain ⟨⟨hn, ht⟩, hd, hid, hset, -⟩ := Config.check_ok h
    exact ⟨fun d => (maskLegal_iff _).1 (hd d).1, hid ▸ hn, hset ▸ ht⟩
  · exact Config.check_accepts (fun d => (maskLegal_iff _).2 (hm d)) hn ht
  · exact ⟨Config.dirMask_of_check h, (Config.check_ok h).1⟩

/-- Settles O5: the input placed first is the one the step presents, and its word decodes to the instruction. -/
theorem stepPresentsTheDecodedCommand : Obligations.StepPresentsTheDecodedCommand := by
  refine ⟨fun s w rest hs hin => step_command hs hin, fun s i nbits hn => ?_⟩
  rw [withFetchWord_toNat hn, step_command (w := encode i) rfl rfl, decode_encode]
  rfl

end Sys2Proof.Machine

/-! SUPPORT. What a step and a micro-step do, by position, and the shift stage during a frame (R28, R78). -/

namespace Sys2Proof.Machine

/-- Everything a step can do, by the fields that decide it (R28, R213). -/
theorem step_cases {s t : State} (h : step s = .next t) :
    ((presented s).rst = true ∧ t = resetEvent (popInput s)) ∨
    (NoResetNow s ∧ s.seq ≠ .ready ∧ t = microStep (popInput s)) ∨
    (NoResetNow s ∧ s.seq = .ready ∧ t = popInput s) ∨
    (NoResetNow s ∧ s.seq = .ready ∧ ∃ w, (presented s).cmd = some w ∧ exec (decode w) (popInput s) = .next t) := by
  rcases step_next_cases h with ⟨hc, rfl⟩ | ⟨hc, rfl⟩ | ⟨hc, rfl⟩ | ⟨i, hc, hx⟩
  · exact .inl ⟨(stepCase_reset_iff s).1 hc, rfl⟩
  · obtain ⟨hr, hs⟩ := (stepCase_micro_iff s).1 hc
    exact .inr (.inl ⟨hr, hs, rfl⟩)
  · have hr : NoResetNow s := Bool.eq_false_iff.2 fun hr => by simp [(stepCase_reset_iff s).2 hr] at hc
    have hs : s.seq = .ready := not_not.1 fun hs => by simp [(stepCase_micro_iff s).2 ⟨hr, hs⟩] at hc
    exact .inr (.inr (.inl ⟨hr, hs, rfl⟩))
  · obtain ⟨hr, hs, w, hw, rfl⟩ := (stepCase_command_iff s i).1 hc
    exact .inr (.inr (.inr ⟨hr, hs, w, hw, hx⟩))

/-! The lines by name, after a write -/

section

variable (ls : Lines) (l : Line) (v : Level)

@[simp] theorem Lines.set_latch : (ls.set l v).latch = if l = .latch then v else ls.latch := by cases l <;> rfl
@[simp] theorem Lines.set_clock : (ls.set l v).clock = if l = .clock then v else ls.clock := by cases l <;> rfl
@[simp] theorem Lines.set_data : (ls.set l v).data = if l = .data then v else ls.data := by cases l <;> rfl
@[simp] theorem Lines.set_regEnN : (ls.set l v).regEnN = if l = .regEnN then v else ls.regEnN := by cases l <;> rfl
@[simp] theorem Lines.set_men1 : (ls.set l v).men1 = if l = .men1 then v else ls.men1 := by cases l <;> rfl
@[simp] theorem Lines.set_men2 : (ls.set l v).men2 = if l = .men2 then v else ls.men2 := by cases l <;> rfl
@[simp] theorem Lines.set_men3 : (ls.set l v).men3 = if l = .men3 then v else ls.men3 := by cases l <;> rfl
@[simp] theorem Lines.set_men4 : (ls.set l v).men4 = if l = .men4 then v else ls.men4 := by cases l <;> rfl

end

@[simp] theorem menLine_ne_data (c : Channel) : menLine c ≠ .data := by cases c <;> decide

@[simp] theorem menLine_ne_regEnN (c : Channel) : menLine c ≠ .regEnN := by cases c <;> decide

@[simp] theorem latch_ne_menLine (c : Channel) : .latch ≠ menLine c := (menLine_ne_latch c).symm

@[simp] theorem lineOfNumber_eq_latch_iff (k : Fin 8) : lineOfNumber k = .latch ↔ k = 0 := by revert k; decide

@[simp] theorem lineOfNumber_eq_clock_iff (k : Fin 8) : lineOfNumber k = .clock ↔ k = 1 := by revert k; decide

theorem lineOfNumber_injective : Function.Injective lineOfNumber := by decide

/-! The action of each position, as a line write or an update of one register (R28(c)) -/

section

variable (s : State)

@[simp] theorem action_init (k : Fin 8) : action (.init k) s = lineWrite s (lineOfNumber k) .low := rfl
@[simp] theorem action_arm (c : Channel) : action (.arm c) s = lineWrite s (menLine c) .high := rfl
@[simp] theorem action_rwLatchLo : action .rwLatchLo s = { lineWrite s .latch .low with sr := s.mreg } := rfl
@[simp] theorem action_rwData (i : Fin 8) :
    action (.rwData i) s = { lineWrite s .data (dataLevel s.sr) with sr := shiftLeft s.sr } := rfl
@[simp] theorem action_rwClkHi (i : Fin 8) : action (.rwClkHi i) s = lineWrite s .clock .high := rfl
@[simp] theorem action_rwSettle (i : Fin 8) : action (.rwSettle i) s = settle s := rfl
@[simp] theorem action_rwClkLo (i : Fin 8) : action (.rwClkLo i) s = lineWrite s .clock .low := rfl
@[simp] theorem action_rwLatchHi : action .rwLatchHi s = lineWrite s .latch .high := rfl
@[simp] theorem action_rwRecord : action .rwRecord s = { s with lastMask := s.mreg } := rfl
@[simp] theorem action_shield (on : Bool) :
    action (.shield on) s = { lineWrite s .regEnN (shieldLevel on) with enabled := on } := rfl
@[simp] theorem action_stop (c : Channel) : action (.stop c) s = lineWrite s (menLine c) .low := rfl
@[simp] theorem action_ready : action .ready s = s := rfl

end

theorem level_ne_high_iff {v : Level} : v ≠ .high ↔ v = .low := by cases v <;> simp

/-! What a micro-step does to the fields that few positions write -/

/-- `enabled` is written at `SHIELD(on)` only (R191). -/
theorem microStep_enabled_of_ne {s : State} (h : ∀ on, s.seq ≠ .shield on) : (microStep s).enabled = s.enabled := by
  cases hp : s.seq with
  | shield on => exact absurd hp (h on)
  | _ => simp [microStep, hp]

theorem microStep_lastMask (s : State) :
    (microStep s).lastMask = if s.seq = .rwRecord then s.mreg else s.lastMask := by
  cases hp : s.seq <;> simp [microStep, hp]

theorem microStep_latched (s : State) :
    (microStep s).latched = true ↔ s.latched = true ∨ s.seq = .rwLatchHi := by
  cases hp : s.seq <;> simp [State.latched, microStep, hp]

theorem microStep_latch_high_iff (s : State) :
    (microStep s).lines.latch = .high ↔
      s.seq = .rwLatchHi ∨ (s.lines.latch = .high ∧ s.seq ≠ .rwLatchLo ∧ s.seq ≠ .init 0) := by
  cases hp : s.seq with
  | init k => by_cases hk : k = 0 <;> simp [microStep, hp, hk]
  | _ => simp [microStep, hp]

theorem microStep_clock_high_iff (s : State) :
    (microStep s).lines.clock = .high ↔
      (∃ i, s.seq = .rwClkHi i) ∨ (s.lines.clock = .high ∧ (∀ i, s.seq ≠ .rwClkLo i) ∧ s.seq ≠ .init 1) := by
  cases hp : s.seq with
  | init k => by_cases hk : k = 1 <;> simp [microStep, hp, hk]
  | _ => simp [microStep, hp]

theorem microStep_devQ_of_ne {s : State} (h : s.seq ≠ .rwLatchHi) : (microStep s).devQ = s.devQ := by
  cases hp : s.seq with
  | rwLatchHi => exact absurd hp h
  | _ => simp [microStep, hp, outputLatchAfter]

theorem microStep_devS_of_ne {s : State} (h : ∀ i, s.seq ≠ .rwClkHi i) : (microStep s).devS = s.devS := by
  cases hp : s.seq with
  | rwClkHi i => exact absurd hp (h i)
  | _ => simp [microStep, hp, shiftStageAfter]

/-! The motor enables -/

theorem State.menAll_iff (s : State) (v : Level) :
    s.menAll v = true ↔ s.lines.men1 = v ∧ s.lines.men2 = v ∧ s.lines.men3 = v ∧ s.lines.men4 = v := by
  simp [State.menAll, Channel.all, State.men, menLine, Lines.get]

theorem State.men_of_menAll {s : State} {v : Level} (h : s.menAll v = true) (c : Channel) : s.men c = v := by
  have hc := List.all_eq_true.1 h c (by cases c <;> simp [Channel.all])
  simpa using hc

/-! The shift stage during a frame (R78) -/

/-- `n` clock edges are over: stage `k` holds bit `8 - n + k` of the mask. -/
theorem shifted_iff {n : Nat} (hn : n ≤ 8) (s : State) :
    shifted n s ↔ ∀ k < n, s.devS.getLsbD k = s.mreg.getLsbD (8 - n + k) := by
  constructor
  · intro h k hk
    have hbit := congrArg (fun b => b.getLsbD (8 - n + k)) h
    have hlt : 8 - n + k < 8 := by omega
    simpa [hlt, show k < 8 by omega] using hbit
  · intro h
    ext i hi
    simp only [BitVec.getElem_shiftLeft, BitVec.getElem_ushiftRight]
    by_cases hin : i < 8 - n
    · simp [hin]
    · simpa [hin, hi, show 8 - n + (i - (8 - n)) = i by omega, show i - (8 - n) < 8 by omega] using
        h (i - (8 - n)) (by omega)

theorem shifted_zero (s : State) : shifted 0 s := (shifted_iff (by omega) s).2 (by simp)

theorem shifted_congr {n : Nat} {s t : State} (h : shifted n s) (hS : t.devS = s.devS) (hm : t.mreg = s.mreg) :
    shifted n t := by
  unfold shifted at *
  rw [hS, hm, h]

theorem devS_eq_mreg_of_shifted {s : State} (h : shifted 8 s) : s.devS = s.mreg := by
  ext k hk
  simpa [BitVec.getLsbD_eq_getElem hk] using (shifted_iff le_rfl s).1 h k hk

theorem shiftIn_getLsbD_zero (stages : Byte) (b : Bool) : (shiftIn stages b).getLsbD 0 = b := by
  simp [shiftIn]

theorem shiftIn_getLsbD_succ (stages : Byte) (b : Bool) {k : Nat} (h : k + 1 < 8) :
    (shiftIn stages b).getLsbD (k + 1) = stages.getLsbD k := by
  simp [shiftIn, h, show k < 8 by omega]

/-- A clock edge that takes the next bit of the mask (R78). -/
theorem shifted_succ {n : Nat} (hn : n < 8) {s t : State} (h : shifted n s) (hm : t.mreg = s.mreg)
    (hS : t.devS = shiftIn s.devS (s.mreg.getLsbD (7 - n))) : shifted (n + 1) t := by
  rw [shifted_iff hn, hm, hS]
  intro k hk
  cases k with
  | zero => rw [shiftIn_getLsbD_zero]; congr 1; omega
  | succ k =>
    rw [shiftIn_getLsbD_succ _ _ (by omega), (shifted_iff hn.le s).1 h k (by omega)]
    congr 1
    omega

/-- After `i` bits have gone, the next one on `DATA` is bit `7 - i` of the mask (R152). -/
theorem dataLevel_shiftLeft (m : Byte) (i : Fin 8) : dataLevel (m <<< i.val) = bitLevel m (7 - i.val) := by
  rw [dataLevel_eq, bitLevel, BitVec.getLsbD_shiftLeft]
  simp [show ¬ 7 < i.val by omega]

end Sys2Proof.Machine

/-! SUPPORT. The invariant of the machine and its target device, clause by clause: each micro-step, each presentation and
each reset keeps it (R22, R34, R66, R78, R79, R160). -/

namespace Sys2Proof.Machine

/-! The sequencer's classes of positions and their successors -/

theorem Seq.transmitting_of_successor {p : Seq} (hp : p ≠ .ready) (h : p.successor.transmitting = true) :
    p.transmitting = true := by
  cases p with
  | ready => exact absurd rfl hp
  | init k => by_cases hk : k = 7 <;> simp [Seq.successor, hk, Seq.transmitting, Seq.shifterBusy] at h
  | stop c => cases c <;> simp [Seq.successor, nextChannel, Seq.transmitting, Seq.shifterBusy] at h
  | shield on => simp [Seq.successor, Seq.transmitting, Seq.shifterBusy] at h
  | _ => rfl

/-- A frame is entered from `RW_LATCH_LO` and left by `RW_LATCH_HI`. -/
theorem Seq.inFrame_successor (p : Seq) :
    p.successor.inFrame = true ↔ p = .rwLatchLo ∨ (p.inFrame = true ∧ p ≠ .rwLatchHi) := by
  cases p with
  | init k => by_cases hk : k = 7 <;> simp [Seq.successor, hk, Seq.inFrame]
  | arm c => cases c <;> simp [Seq.successor, nextChannel, Seq.inFrame]
  | stop c => cases c <;> simp [Seq.successor, nextChannel, Seq.inFrame]
  | rwClkLo i => by_cases hi : i = 7 <;> simp [Seq.successor, hi, Seq.inFrame]
  | _ => simp [Seq.successor, Seq.inFrame]

theorem Seq.clockHigh_successor (p : Seq) :
    p.successor.clockHigh = true ↔ (∃ i, p = .rwClkHi i) ∨ ∃ i, p = .rwSettle i := by
  cases p with
  | init k => by_cases hk : k = 7 <;> simp [Seq.successor, hk, Seq.clockHigh]
  | arm c => cases c <;> simp [Seq.successor, nextChannel, Seq.clockHigh]
  | stop c => cases c <;> simp [Seq.successor, nextChannel, Seq.clockHigh]
  | rwClkLo i => by_cases hi : i = 7 <;> simp [Seq.successor, hi, Seq.clockHigh]
  | _ => simp [Seq.successor, Seq.clockHigh]

/-- The shifter falls idle only after `RW_RECORD`. -/
theorem Seq.shifterBusy_of_successor {p : Seq} (hp : p ≠ .rwRecord) (h : p.successor.shifterBusy = false) :
    p.shifterBusy = false := by
  cases p with
  | rwClkLo i => by_cases hi : i = 7 <;> simp [Seq.successor, hi, Seq.shifterBusy] at h
  | rwRecord => exact absurd rfl hp
  | rwLatchLo | rwData _ | rwClkHi _ | rwSettle _ | rwLatchHi => simp [Seq.successor, Seq.shifterBusy] at h
  | _ => rfl

theorem Seq.successor_eq_rwRecord_iff (p : Seq) : p.successor = .rwRecord ↔ p = .rwLatchHi := by
  cases p with
  | init k => by_cases hk : k = 7 <;> simp [Seq.successor, hk]
  | arm c => cases c <;> simp [Seq.successor, nextChannel]
  | stop c => cases c <;> simp [Seq.successor, nextChannel]
  | rwClkLo i => by_cases hi : i = 7 <;> simp [Seq.successor, hi]
  | _ => simp [Seq.successor]

/-- The positions at which an accepted command starts (R28(a)). -/
def Seq.IsFirst (p : Seq) : Prop := p = .init 0 ∨ p = .arm .m1 ∨ p = .stop .m1 ∨ ∃ on, p = .shield on

/-- No command starts in a clock pulse or in a frame. -/
theorem Seq.IsFirst.outside {p : Seq} (h : p.IsFirst) :
    p.clockHigh = false ∧ p.inFrame = false ∧ p.shifterBusy = false ∧ p ≠ .rwRecord := by
  rcases h with rfl | rfl | rfl | ⟨on, rfl⟩ <;> exact ⟨rfl, rfl, rfl, by simp⟩

namespace State.Inv

section

variable {s : State} (h : s.Inv)
include h

theorem clock_low (hp : s.seq.clockHigh = false) : s.lines.clock = .low :=
  level_ne_high_iff.1 fun hc => by simp [h.clock.1 hc] at hp

/-- At `RW_RECORD` the frame has been latched. -/
theorem latched_of_rwRecord (hp : s.seq = .rwRecord) : s.latched = true := h.latchHighLatched (h.latchHigh hp)

/-- From its first write on, `INIT` keeps `LATCH` low. -/
theorem init_zero_of_latch_high {k : Fin 8} (hp : s.seq = .init k) (hl : s.lines.latch = .high) : k = 0 := by
  by_contra hk
  have he := h.enables
  rw [hp] at he
  have hlow : s.lines.latch = .low := he 0 (Fin.pos_of_ne_zero hk)
  simp [hlow] at hl

/-- Where `LATCH` is high after a micro-step, the step drove it high, or it was high already and no `INIT` and no frame is
under way. -/
theorem latch_high_of_microStep (hl : (microStep s).lines.latch = .high) :
    s.seq = .rwLatchHi ∨
      (s.lines.latch = .high ∧ s.seq.inFrame = false ∧ s.seq ≠ .rwLatchLo ∧ ∀ k, s.seq ≠ .init k) := by
  rcases (microStep_latch_high_iff s).1 hl with hp | ⟨hl, hlo, h0⟩
  · exact .inl hp
  · refine .inr ⟨hl, ?_, hlo, fun k hp => h0 (h.init_zero_of_latch_high hp hl ▸ hp)⟩
    by_contra hf
    simp [h.latchLow (by simpa using hf)] at hl

theorem microStep_clock : (microStep s).lines.clock = .high ↔ (microStep s).seq.clockHigh = true := by
  rw [microStep_clock_high_iff, microStep_seq, Seq.clockHigh_successor, h.clock]
  cases s.seq <;> simp [Seq.clockHigh]

theorem microStep_latchLow (hf : (microStep s).seq.inFrame = true) : (microStep s).lines.latch = .low := by
  rw [microStep_seq, Seq.inFrame_successor] at hf
  refine level_ne_high_iff.1 fun hl => ?_
  rcases h.latch_high_of_microStep hl with hp | ⟨-, hout, hlo, -⟩
  · simp [hp] at hf
  · simp [hout, hlo] at hf

theorem microStep_lastMaskKnown :
    ((microStep s).latched = true ∧ HasMask (microStep s).cfg (microStep s).lastMask) ∨
      ((microStep s).lastMask = 0x00 ∧ ((microStep s).latched = true → (microStep s).seq = .rwRecord)) := by
  obtain ⟨-, -, -, hcfg, -, -⟩ := microStep_frame s
  rw [microStep_latched, microStep_lastMask, hcfg, microStep_seq, Seq.successor_eq_rwRecord_iff]
  by_cases hp : s.seq = .rwRecord
  · have hm : HasMask s.cfg s.mreg := h.mregMask (by rw [hp]; rfl)
    simp [hp, h.latched_of_rwRecord hp, hm]
  · rw [if_neg hp]
    rcases h.lastMaskKnown with ⟨hl, hm⟩ | ⟨h0, hl⟩
    · exact .inl ⟨.inl hl, hm⟩
    · exact .inr ⟨h0, fun hor => hor.resolve_left fun hlat => hp (hl hlat)⟩

theorem microStep_deviceHolds (hl : (microStep s).latched = true) (hb : (microStep s).seq.shifterBusy = false) :
    (microStep s).devS = (microStep s).lastMask ∧ (microStep s).devQ = (microStep s).lastMask := by
  rw [microStep_latched] at hl
  rw [microStep_seq] at hb
  rw [microStep_lastMask]
  by_cases hp : s.seq = .rwRecord
  · have hs := h.shifter
    rw [hp] at hs
    obtain ⟨-, hS, hQ, -⟩ := hs
    rw [microStep_devS_of_ne (by simp [hp]), microStep_devQ_of_ne (by simp [hp]), if_pos hp]
    exact ⟨hS, hQ⟩
  · have hidle := Seq.shifterBusy_of_successor hp hb
    have hclk : ∀ i, s.seq ≠ .rwClkHi i := fun i e => by simp [e, Seq.shifterBusy] at hidle
    have hlat : s.seq ≠ .rwLatchHi := fun e => by simp [e, Seq.shifterBusy] at hidle
    rw [microStep_devS_of_ne hclk, microStep_devQ_of_ne hlat, if_neg hp]
    exact h.deviceHolds (hl.resolve_right hlat) hidle

theorem microStep_outputHolds (hl : (microStep s).latched = true) (hb : (microStep s).seq.shifterBusy = true)
    (hr : (microStep s).seq ≠ .rwRecord) : (microStep s).devQ = (microStep s).lastMask := by
  rw [microStep_seq] at hb hr
  have hlat : s.seq ≠ .rwLatchHi := fun e => hr (by rw [e]; rfl)
  have hp : s.seq ≠ .rwRecord := fun e => by simp [e, Seq.successor, Seq.shifterBusy] at hb
  rw [microStep_latched] at hl
  replace hl := hl.resolve_right hlat
  rw [microStep_devQ_of_ne hlat, microStep_lastMask, if_neg hp]
  cases hbusy : s.seq.shifterBusy with
  | false => exact (h.deviceHolds hl hbusy).2
  | true => exact h.outputHolds hl hbusy hp

theorem microStep_latchHighLatched (hl : (microStep s).lines.latch = .high) : (microStep s).latched = true := by
  rw [microStep_latched]
  rcases h.latch_high_of_microStep hl with hp | ⟨hl, -⟩
  · exact .inr hp
  · exact .inl (h.latchHighLatched hl)

theorem microStep_shieldAgrees (hl : (microStep s).lines.latch = .high) (hr : (microStep s).seq ≠ .rwRecord)
    (hsh : ∀ on, (microStep s).seq ≠ .shield on) :
    (microStep s).enabled = true ↔ (microStep s).lines.regEnN = .low := by
  rw [microStep_seq] at hr hsh
  rcases h.latch_high_of_microStep hl with hp | ⟨hl, -, -, hinit⟩
  · exact absurd (by rw [hp]; rfl) hr
  · have hold := h.shieldAgrees hl
    cases hp : s.seq with
    | shield on => cases on <;> simp [microStep, hp, shieldLevel]
    | rwRecord => exact absurd (by rw [hp]; rfl) (hsh true)
    | init k => exact absurd hp (hinit k)
    | _ => simpa [microStep, hp] using hold

/-- `INIT(k)` leaves the lines up to number `k` low (R190). -/
theorem low_after_init {k j : Fin 8} (hp : s.seq = .init k) (hj : j ≤ k) :
    (microStep s).lines.get (lineOfNumber j) = .low := by
  have he := h.enables
  rw [hp] at he
  rw [microStep_lines, hp, action_init, lineWrite_lines]
  rcases hj.eq_or_lt with rfl | hlt
  · exact Lines.get_set_same _ _ _
  · rw [Lines.get_set_other _ _ (lineOfNumber_injective.ne hlt.ne)]
    exact he j hlt

theorem microStep_enables (hs : s.seq ≠ .ready) : EnablesAt (microStep s) (microStep s).seq := by
  have he := h.enables
  rw [microStep_seq]
  cases hp : s.seq with
  | ready => exact absurd hp hs
  | init k =>
    have hlow : ∀ j ≤ k, (microStep s).lines.get (lineOfNumber j) = .low := fun j hj => h.low_after_init hp hj
    by_cases hk : k = 7
    · subst hk
      have h1 : (microStep s).lines.men1 = .low := hlow 4 (by decide)
      have h2 : (microStep s).lines.men2 = .low := hlow 5 (by decide)
      have h3 : (microStep s).lines.men3 = .low := hlow 6 (by decide)
      have h4 : (microStep s).lines.men4 = .low := hlow 7 (by decide)
      simp [Seq.successor, EnablesAt, State.menAll_iff, h1, h2, h3, h4]
    · simp only [Seq.successor, if_neg hk]
      exact fun j hj => hlow j (by omega)
  | arm c =>
    rw [hp] at he
    cases c with
    | m1 => simp [EnablesAt, microStep, hp, Seq.successor, nextChannel, menLine]
    | _ => simpa [EnablesAt, microStep, hp, Seq.successor, nextChannel, menLine, State.menAll_iff] using he
  | stop c =>
    rw [hp] at he
    cases c with
    | m1 => simp [EnablesAt, microStep, hp, Seq.successor, nextChannel, menLine]
    | m4 =>
      obtain ⟨h1, h2, h3⟩ := he
      simp [EnablesAt, microStep, hp, Seq.successor, nextChannel, menLine, State.menAll_iff, h1, h2, h3]
    | _ => simpa [EnablesAt, microStep, hp, Seq.successor, nextChannel, menLine] using he
  | rwClkLo i =>
    rw [hp] at he
    by_cases hi : i = 7 <;> simpa [EnablesAt, microStep, hp, Seq.successor, hi, State.menAll_iff] using he
  | rwRecord =>
    rw [hp] at he
    obtain ⟨h1, h2, h3, h4⟩ := (s.menAll_iff _).1 he
    simp [EnablesAt, microStep, hp, Seq.successor, State.menAll_iff, h1, h2, h3, h4]
  | _ =>
    rw [hp] at he
    simpa [EnablesAt, microStep, hp, Seq.successor, State.menAll_iff] using he

theorem microStep_mregMask (hs : s.seq ≠ .ready) (ht : (microStep s).seq.transmitting = true) :
    HasMask (microStep s).cfg (microStep s).mreg := by
  obtain ⟨-, -, hm, hcfg, -, -⟩ := microStep_frame s
  rw [hm, hcfg]
  exact h.mregMask (Seq.transmitting_of_successor hs ht)

theorem microStep_shifter : ShifterAt (microStep s) (microStep s).seq := by
  have hsh := h.shifter
  rw [microStep_seq]
  cases hp : s.seq with
  | ready => trivial
  | init k => by_cases hk : k = 7 <;> simp [Seq.successor, hk, ShifterAt]
  | arm c => cases c <;> trivial
  | stop c => cases c <;> trivial
  | shield on => trivial
  | rwLatchLo => exact ⟨by simp [microStep, hp], shifted_zero _⟩
  | rwData i =>
    rw [hp] at hsh
    obtain ⟨hsr, hS⟩ := hsh
    refine ⟨?_, shifted_congr hS (by simp [microStep, hp, shiftStageAfter]) (by simp [microStep, hp]), ?_⟩
    · simp [microStep, hp, hsr, shiftLeft, BitVec.shiftLeft_add]
    · simp [microStep, hp, hsr, dataLevel_shiftLeft]
  | rwClkHi i =>
    rw [hp] at hsh
    obtain ⟨hsr, hS, hd⟩ := hsh
    have hclk : s.lines.clock = .low := h.clock_low (by rw [hp]; rfl)
    refine ⟨by simpa [microStep, hp] using hsr, shifted_succ i.isLt hS (by simp [microStep, hp]) ?_,
      by simpa [microStep, hp] using hd⟩
    simp [microStep, hp, shiftStageAfter, hclk, hd, bitLevel]
  | rwSettle i =>
    rw [hp] at hsh
    obtain ⟨hsr, hS, hd⟩ := hsh
    exact ⟨by simpa [microStep, hp] using hsr, shifted_congr hS (by simp [microStep, hp]) (by simp [microStep, hp]),
      by simpa [microStep, hp] using hd⟩
  | rwClkLo i =>
    rw [hp] at hsh
    obtain ⟨hsr, hS, hd⟩ := hsh
    have hS' : shifted (i.val + 1) (microStep s) :=
      shifted_congr hS (by simp [microStep, hp]) (by simp [microStep, hp])
    by_cases hi : i = 7
    · subst hi
      exact ⟨by simpa [microStep, hp] using hsr, devS_eq_mreg_of_shifted hS', by simpa [microStep, hp] using hd⟩
    · have hval : (i + 1).val = i.val + 1 := by omega
      simp only [Seq.successor, if_neg hi, ShifterAt, hval]
      exact ⟨by simpa [microStep, hp] using hsr, hS'⟩
  | rwLatchHi =>
    rw [hp] at hsh
    obtain ⟨hsr, hS, hd⟩ := hsh
    have hlat : s.lines.latch = .low := h.latchLow (by rw [hp]; rfl)
    refine ⟨by simpa [microStep, hp] using hsr, ?_, ?_, by simpa [microStep, hp] using hd⟩
    · simp [microStep, hp, shiftStageAfter, hS]
    · simp [microStep, hp, outputLatchAfter, hlat, hS]
  | rwRecord => trivial

theorem microStep_dataAtRest (hb : (microStep s).seq.shifterBusy = false ∨ (microStep s).seq = .rwLatchLo)
    (hi : ∀ k, (microStep s).seq ≠ .init k) :
    (microStep s).lines.data =
      if (microStep s).lines.latch = .high then bitLevel (microStep s).lastMask 0 else .low := by
  rw [microStep_seq] at hb hi
  cases hp : s.seq with
  | init k =>
    have hk : k = 7 := by
      by_contra hk
      exact hi (k + 1) (by simp [hp, Seq.successor, hk])
    subst hk
    have hlatch : (microStep s).lines.latch = .low := h.low_after_init hp (j := 0) (by decide)
    have hdata : (microStep s).lines.data = .low := h.low_after_init hp (j := 2) (by decide)
    simp [hlatch, hdata]
  | rwRecord =>
    have hs := h.shifter
    rw [hp] at hs
    obtain ⟨-, -, -, hd⟩ := hs
    simp [microStep, hp, h.latchHigh hp, hd]
  | rwLatchLo | rwData _ | rwClkHi _ | rwSettle _ | rwLatchHi => simp [hp, Seq.successor, Seq.shifterBusy] at hb
  | rwClkLo i => by_cases hi : i = 7 <;> simp [hp, Seq.successor, hi, Seq.shifterBusy] at hb
  | _ =>
    have hd := h.dataAtRest (.inl (by rw [hp]; rfl)) (by simp [hp])
    simpa [microStep, hp] using hd

/-- A micro-step keeps the invariant. -/
theorem after_microStep (hs : s.seq ≠ .ready) : (microStep s).Inv := by
  obtain ⟨hopened, hfault, -, hcfg, -, -⟩ := microStep_frame s
  have hop : s.opened = true := h.busyOpened hs
  exact {
    cfgOk := hcfg ▸ h.cfgOk
    openedPresent := by rw [hopened, hcfg]; exact h.openedPresent
    faultAbsent := by rw [hfault, hcfg]; exact h.faultAbsent
    busyOpened := fun _ => hopened.trans hop
    untouched := fun hno => by simp [hopened, hop] at hno
    clock := h.microStep_clock
    latchLow := h.microStep_latchLow
    latchHigh := fun hr => (microStep_latch_high_iff s).2 (.inl ((Seq.successor_eq_rwRecord_iff _).1 hr))
    enables := h.microStep_enables hs
    shifter := h.microStep_shifter
    mregMask := h.microStep_mregMask hs
    lastMaskKnown := h.microStep_lastMaskKnown
    deviceHolds := h.microStep_deviceHolds
    outputHolds := h.microStep_outputHolds
    latchHighLatched := h.microStep_latchHighLatched
    dataAtRest := h.microStep_dataAtRest
    shieldAgrees := h.microStep_shieldAgrees }

/-- Taking an input off the list keeps the invariant, which does not speak of the inputs. -/
theorem after_popInput : (popInput s).Inv := { h with }

/-- The exception needs the absence of a controller, and nothing else in the invariant speaks of it (R210, R215). -/
theorem after_raiseHardwareUnavailable (hg : s.cfg.gpioPresent = false) : (raiseHardwareUnavailable s).Inv :=
  { h with faultAbsent := fun _ => hg }

/-- Starting a command in `READY` keeps the invariant: no line, no event and nothing of the device or the status moves. -/
theorem after_start {p : Seq} {m : Byte} (hs : s.seq = .ready) (hg : s.cfg.gpioPresent = true) (hp : p.IsFirst)
    (hm : p.transmitting = true → HasMask s.cfg m) :
    ({ s with opened := true, mreg := m, seq := p } : State).Inv := by
  obtain ⟨hclk, hframe, hbusy, hrec⟩ := hp.outside
  have hrest : s.seq.shifterBusy = false := by rw [hs]; rfl
  have he := h.enables
  rw [hs] at he
  exact {
    cfgOk := h.cfgOk
    openedPresent := fun _ => hg
    faultAbsent := h.faultAbsent
    busyOpened := fun _ => rfl
    untouched := by simp
    clock := by simp [hclk, h.clock_low (by rw [hs]; rfl)]
    latchLow := fun hf => by simp [hframe] at hf
    latchHigh := fun hr => absurd hr hrec
    enables := by
      rcases hp with rfl | rfl | rfl | ⟨on, rfl⟩
      · exact fun j hj => absurd hj (Fin.not_lt_zero j)
      · trivial
      · trivial
      · exact he
    shifter := by rcases hp with rfl | rfl | rfl | ⟨on, rfl⟩ <;> trivial
    mregMask := hm
    lastMaskKnown := h.lastMaskKnown.imp_right fun ⟨h0, hl⟩ => ⟨h0, fun hlat => absurd (hl hlat) (by simp [hs])⟩
    deviceHolds := fun hl _ => h.deviceHolds hl hrest
    outputHolds := fun _ hb => by simp [hbusy] at hb
    latchHighLatched := h.latchHighLatched
    dataAtRest := fun _ _ => h.dataAtRest (.inl hrest) (by simp [hs])
    shieldAgrees := fun hl _ _ => h.shieldAgrees hl (by simp [hs]) (by simp [hs]) }

/-- The presentation of an instruction keeps the invariant. -/
theorem after_exec {i : Instr} {t : State} (hx : exec i s = .next t) : t.Inv := by
  have go : ∀ p : Seq, acceptsCommand s = true → p.IsFirst → p.transmitting = false → (setSeq s p).Inv := by
    intro p ha hp ht
    obtain ⟨hs, -, ho⟩ := (acceptsCommand_iff s).1 ha
    have hst := h.after_start (m := s.mreg) hs (h.openedPresent ho) hp (by simp [ht])
    rwa [← ho] at hst
  rcases exec_next_cases hx with
    rfl | ⟨-, -, hg, rfl⟩ | ⟨-, ha, hg, rfl⟩ | ⟨ha, d, rfl⟩ | ⟨ha, -, rfl⟩ | ⟨ha, on, -, rfl⟩
  · exact h
  · exact h.after_raiseHardwareUnavailable hg
  · exact h.after_start ((acceptsInit_iff s).1 ha).1 hg (.inl rfl) (by simp [Seq.transmitting, Seq.shifterBusy])
  · obtain ⟨hs, -, ho⟩ := (acceptsCommand_iff s).1 ha
    have hst := h.after_start (p := .arm .m1) hs (h.openedPresent ho) (.inr (.inl rfl)) fun _ => ⟨d, rfl⟩
    rwa [← ho] at hst
  · exact go _ ha (.inr (.inr (.inl rfl))) rfl
  · exact go _ ha (.inr (.inr (.inr ⟨on, rfl⟩))) rfl

end

end State.Inv

/-- A state a reset leaves meets the invariant: nothing is in flight and nothing has been latched. -/
theorem State.AfterReset.inv {s : State} (h : s.AfterReset) : s.Inv := by
  obtain ⟨hl, he, hm, ho, hf, hs, ht, hcfg⟩ := h
  have hlat : s.latched = false := by simp [State.latched, ht]
  exact {
    cfgOk := hcfg
    openedPresent := by simp [ho]
    faultAbsent := by simp [hf]
    busyOpened := by simp [hs]
    untouched := fun _ => ⟨hl, he, hm, ht⟩
    clock := by simp [hl, hs, Lines.allLow, Seq.clockHigh]
    latchLow := by simp [hs, Seq.inFrame]
    latchHigh := by simp [hs]
    enables := by simp [hl, hs, Lines.allLow, EnablesAt, State.menAll_iff]
    shifter := by rw [hs]; trivial
    mregMask := by simp [hs, Seq.transmitting, Seq.shifterBusy]
    lastMaskKnown := .inr ⟨hm, by simp [hlat]⟩
    deviceHolds := by simp [hlat]
    outputHolds := by simp [hlat]
    latchHighLatched := by simp [hl, Lines.allLow]
    dataAtRest := by simp [hl, Lines.allLow]
    shieldAgrees := by simp [hl, Lines.allLow] }

/-- `rst` leaves a state of `State.AfterReset` (R36, R240). -/
theorem resetEvent_afterReset {s : State} (h : s.cfg.wf) : (resetEvent s).AfterReset :=
  ⟨rfl, rfl, rfl, rfl, rfl, rfl, rfl, h⟩

theorem resetConfig_wf : resetConfig.wf := by
  refine ⟨?_, Nat.le_add_left 1 _⟩
  show Config.freeLineId.toList.Nodup
  unfold Config.freeLineId
  split
  · assumption
  · decide

/-- Power-on leaves a state of `State.AfterReset` (R36). -/
theorem reset_afterReset : State.reset.AfterReset := ⟨rfl, rfl, rfl, rfl, rfl, rfl, rfl, resetConfig_wf⟩

/-- At the positions of the shifter all four motor enables are high (R246). -/
theorem State.Inv.enables_of_shifterBusy {s : State} (h : s.Inv) (hb : s.seq.shifterBusy = true) :
    s.menAll .high = true := by
  have he := h.enables
  cases hp : s.seq with
  | rwLatchLo | rwData _ | rwClkHi _ | rwSettle _ | rwClkLo _ | rwLatchHi | rwRecord => rw [hp] at he; exact he
  | _ => simp [hp, Seq.shifterBusy] at hb

/-- Every step keeps the invariant. -/
theorem State.Inv.after_step {s t : State} (h : s.Inv) (hx : step s = .next t) : t.Inv := by
  rcases step_cases hx with ⟨-, rfl⟩ | ⟨-, hs, rfl⟩ | ⟨-, -, rfl⟩ | ⟨-, -, w, -, hx⟩
  · exact (resetEvent_afterReset (s := popInput s) h.cfgOk).inv
  · exact h.after_popInput.after_microStep hs
  · exact h.after_popInput
  · exact h.after_popInput.after_exec hx

end Sys2Proof.Machine

/-! SUPPORT. Runs, the frame of a presentation, the status bits, the view and the motor conditions. -/

namespace Sys2Proof.Machine

/-! Runs -/

/-- A step always answers a next state (R131, R211). -/
theorem step_answers (s : State) : ∃ t, step s = .next t := by
  unfold step
  split
  · exact ⟨_, rfl⟩
  · exact ⟨_, rfl⟩
  · exact ⟨_, rfl⟩
  · exact exec_answers _ _

/-- What every step keeps, every run keeps. -/
theorem run_keeps {P : State → Prop} (hstep : ∀ s t, P s → step s = .next t → P t) {n : Nat} {s t : State}
    (hs : P s) (h : run n s = .next t) : P t := by
  induction n generalizing s with
  | zero => cases h; exact hs
  | succ n ih =>
    obtain ⟨u, hu⟩ := step_answers s
    rw [run_succ n hu] at h
    exact ih (hstep s u hs hu) h

theorem NoReset.mono {k n : Nat} {s : State} (hk : k ≤ n) (h : NoReset n s) : NoReset k s :=
  fun inp hin => h inp ((List.take_sublist_take_left hk).subset hin)

/-- Each micro-step takes one from the steps left (R28). -/
theorem microSteps_remaining {k : Nat} {s : State} (hk : k ≤ s.seq.remaining) :
    (microSteps k s).seq.remaining = s.seq.remaining - k := by
  induction k generalizing s with
  | zero => rfl
  | succ k ih =>
    have hs : s.seq ≠ .ready := fun e => by simp [e, Seq.remaining] at hk
    have hrem := remaining_successor _ hs
    rw [microSteps, ih (by rw [microStep_seq]; omega), microStep_seq]
    omega

/-! The fields a presentation leaves alone (R28(a)) -/

/-- What a presentation leaves as it was, for every instruction. -/
theorem exec_frame {i : Instr} {s t : State} (h : exec i s = .next t) :
    t.devS = s.devS ∧ t.devQ = s.devQ ∧ t.enabled = s.enabled ∧ t.lastMask = s.lastMask ∧ t.sr = s.sr ∧
      t.cfg = s.cfg ∧ t.inputs = s.inputs ∧ t.freeCount = s.freeCount := by
  rcases exec_next_cases h with rfl | ⟨-, -, -, rfl⟩ | ⟨-, -, -, rfl⟩ | ⟨-, d, rfl⟩ | ⟨-, -, rfl⟩ | ⟨-, on, -, rfl⟩ <;>
    exact ⟨rfl, rfl, rfl, rfl, rfl, rfl, rfl, rfl⟩

/-- Only a direction loads `mreg` (R171). -/
theorem exec_mreg {i : Instr} {s t : State} (hd : ∀ d, (i, d) ∉ directionalCommands) (h : exec i s = .next t) :
    t.mreg = s.mreg := by
  cases i with
  | setForward => exact absurd (by decide) (hd .forward)
  | setBackward => exact absurd (by decide) (hd .backward)
  | setTurnLeft => exact absurd (by decide) (hd .turnLeft)
  | setTurnRight => exact absurd (by decide) (hd .turnRight)
  | init =>
    simp only [exec, execInit] at h
    split at h
    · split at h <;> (cases h; rfl)
    · cases h; rfl
  | motorStop => cases h; split <;> rfl
  | setMotorShield on => cases h; split <;> rfl
  | _ => cases h; rfl

/-- Only `INIT` writes `opened` and `fault_hw` (R190, R210). -/
theorem exec_opened_faultHw {i : Instr} {s t : State} (hi : i ≠ .init) (h : exec i s = .next t) :
    t.opened = s.opened ∧ t.faultHw = s.faultHw := by
  rcases exec_next_cases h with rfl | ⟨he, -⟩ | ⟨he, -⟩ | ⟨-, d, rfl⟩ | ⟨-, -, rfl⟩ | ⟨-, on, -, rfl⟩
  · exact ⟨rfl, rfl⟩
  · exact absurd he hi
  · exact absurd he hi
  · exact ⟨rfl, rfl⟩
  · exact ⟨rfl, rfl⟩
  · exact ⟨rfl, rfl⟩

/-- `opened` stays set, and an accepted `INIT` with a controller sets it (R190). -/
theorem exec_opened {i : Instr} {s t : State} (h : exec i s = .next t) :
    (s.opened = true → t.opened = true) ∧
      (s.opened = false → t.opened = true → i = .init ∧ acceptsInit s = true ∧ s.cfg.gpioPresent = true) := by
  have same {P : Prop} {b c : Bool} (e : c = b) : (b = true → c = true) ∧ (b = false → c = true → P) :=
    ⟨e.trans, fun hno hyes => by simp [e, hno] at hyes⟩
  rcases exec_next_cases h with
    rfl | ⟨-, -, -, rfl⟩ | ⟨hi, ha, hg, rfl⟩ | ⟨-, d, rfl⟩ | ⟨-, -, rfl⟩ | ⟨-, on, -, rfl⟩
  · exact same rfl
  · exact same rfl
  · exact ⟨fun _ => rfl, fun _ _ => ⟨hi, ha, hg⟩⟩
  · exact same rfl
  · exact same rfl
  · exact same rfl

theorem step_cfg {s t : State} (h : step s = .next t) : t.cfg = s.cfg := by
  rcases step_cases h with ⟨-, rfl⟩ | ⟨-, -, rfl⟩ | ⟨-, -, rfl⟩ | ⟨-, -, w, -, hx⟩
  · rfl
  · obtain ⟨-, -, -, hcfg, -, -⟩ := microStep_frame (popInput s)
    exact hcfg
  · rfl
  · obtain ⟨-, -, -, -, -, hcfg, -, -⟩ := exec_frame hx
    exact hcfg

/-! `enabled` and `lastMask` are never read (R30) -/

/-- The state with other status bits. -/
def State.withStatus (s : State) (e : Bool) (m : Byte) : State := { s with enabled := e, lastMask := m }

theorem exec_withStatus {i : Instr} {s t : State} (e : Bool) (m : Byte) (h : exec i s = .next t) :
    exec i (s.withStatus e m) = .next (t.withStatus e m) := by
  have hi : acceptsInit (s.withStatus e m) = acceptsInit s := rfl
  have hg : (s.withStatus e m).cfg = s.cfg := rfl
  have hc : acceptsCommand (s.withStatus e m) = acceptsCommand s := rfl
  have dir : ∀ d, presentDirection d (s.withStatus e m) = (presentDirection d s).withStatus e m := by
    intro d
    unfold presentDirection
    rw [hc]
    split <;> rfl
  cases i with
  | init =>
    simp only [exec, execInit, hi, hg] at h ⊢
    split at h
    next ha =>
      rw [if_pos ha]
      split at h
      next hp => cases h; rw [if_pos hp]; rfl
      next hp => cases h; rw [if_neg hp]; rfl
    next ha => cases h; rw [if_neg ha]; rfl
  | setForward => cases h; exact congrArg _ (dir _)
  | setBackward => cases h; exact congrArg _ (dir _)
  | setTurnLeft => cases h; exact congrArg _ (dir _)
  | setTurnRight => cases h; exact congrArg _ (dir _)
  | motorStop =>
    cases h
    simp only [exec, execMotorStop, hc]
    split <;> rfl
  | setMotorShield on =>
    cases h
    simp only [exec, execSetMotorShield, hc]
    split <;> rfl
  | _ => cases h; rfl

/-- The micro-step with other status bits differs in them only. -/
theorem microStep_withStatus (s : State) (e : Bool) (m : Byte) :
    microStep s = (microStep (s.withStatus e m)).withStatus (microStep s).enabled (microStep s).lastMask := by
  have hseq : (s.withStatus e m).seq = s.seq := rfl
  unfold microStep
  rw [hseq]
  cases s.seq <;> rfl

theorem stepCase_withStatus (s : State) (e : Bool) (m : Byte) : stepCase (s.withStatus e m) = stepCase s := rfl

theorem step_withStatus {s t : State} (e : Bool) (m : Byte) (h : step s = .next t) :
    ∃ t', step (s.withStatus e m) = .next t' ∧ t = t'.withStatus t.enabled t.lastMask := by
  unfold step at h ⊢
  rw [stepCase_withStatus]
  cases hc : stepCase s with
  | reset => rw [hc] at h; cases h; exact ⟨_, rfl, rfl⟩
  | micro => rw [hc] at h; cases h; exact ⟨_, rfl, microStep_withStatus (popInput s) e m⟩
  | idle => rw [hc] at h; cases h; exact ⟨_, rfl, rfl⟩
  | command i => rw [hc] at h; exact ⟨_, exec_withStatus e m h, rfl⟩

/-! The view (R32) -/

theorem State.menAll_iff_men (s : State) (v : Level) : s.menAll v = true ↔ ∀ c, s.men c = v :=
  ⟨State.men_of_menAll, fun h => (s.menAll_iff v).2 ⟨h .m1, h .m2, h .m3, h .m4⟩⟩

theorem State.ready_eq_false_iff (s : State) : s.ready = false ↔ s.seq ≠ .ready := by
  rw [← Bool.not_eq_true, State.ready_iff]

theorem Seq.transmitting_iff (p : Seq) : p.transmitting = true ↔
    (∃ c, p = .arm c) ∨ p = .rwLatchLo ∨
      (∃ i, p = .rwData i ∨ p = .rwClkHi i ∨ p = .rwSettle i ∨ p = .rwClkLo i) ∨ p = .rwLatchHi ∨ p = .rwRecord := by
  cases p <;> simp [Seq.transmitting, Seq.shifterBusy]

theorem State.view_transmitting_iff (s : State) : s.view = .transmitting ↔ s.seq.transmitting = true := by
  cases ht : s.seq.transmitting with
  | true => simp [State.view, ht]
  | false =>
    simp only [State.view, ht]
    split_ifs <;> simp_all

/-- In `READY` the class is read from `enabled` and the motor enables. -/
theorem State.view_of_ready {s : State} (hs : s.seq = .ready) :
    s.view = if s.enabled = false ∧ s.menAll .low = true then .idle
      else if s.enabled = true ∧ s.menAll .high = true then .running else .other := by
  have hr : s.ready = true := s.ready_iff.2 hs
  cases he : s.enabled <;> simp [State.view, hs, Seq.transmitting, Seq.shifterBusy, hr, he]

/-- Outside `READY` no class but `Transmitting` and `Other` is left. -/
theorem State.view_of_busy {s : State} (hs : s.seq ≠ .ready) : s.view = .transmitting ∨ s.view = .other := by
  have hr : s.ready = false := s.ready_eq_false_iff.2 hs
  cases ht : s.seq.transmitting <;> simp [State.view, ht, hr]

theorem State.view_idle_iff (s : State) :
    s.view = .idle ↔ s.seq = .ready ∧ s.enabled = false ∧ ∀ c, s.men c = .low := by
  by_cases hs : s.seq = .ready
  · rw [State.view_of_ready hs, ← State.menAll_iff_men]
    cases s.enabled with
    | false => simp [hs]
    | true => cases s.menAll .high <;> simp
  · rcases State.view_of_busy hs with hv | hv <;> simp [hv, hs]

theorem State.view_running_iff (s : State) :
    s.view = .running ↔ s.seq = .ready ∧ s.enabled = true ∧ ∀ c, s.men c = .high := by
  by_cases hs : s.seq = .ready
  · rw [State.view_of_ready hs, ← State.menAll_iff_men]
    cases s.enabled with
    | false => cases s.menAll .low <;> simp
    | true => simp [hs]
  · rcases State.view_of_busy hs with hv | hv <;> simp [hv, hs]

theorem State.men_allLow {s : State} (h : s.lines = .allLow) (c : Channel) : s.men c = .low := by
  rw [State.men, h]
  cases c <;> rfl

/-! The motor conditions of a direction (R76, R77) -/

/-- An unpowered channel is `Off`. -/
theorem State.motorCondition_of_low {s : State} {c : Channel} (h : s.men c = .low) : s.motorCondition c = some .off := by
  simp [State.motorCondition, h]

/-- The channel pair a table entry asks for (R76). -/
def pairOf : Drive → Bool × Bool
  | .off => (false, false)
  | .bitA => (true, false)
  | .bitB => (false, true)

theorem channelPair_mask (e : DirEntry) (c : Channel) : channelPair e.mask c = pairOf (e.drive c) := by
  obtain ⟨a, b, c', d⟩ := e
  cases c <;> cases a <;> cases b <;> cases c' <;> cases d <;> rfl

/-- A powered channel with the outputs driven has the condition its table entry asks for. -/
theorem State.motorCondition_of_mask {s : State} {c : Channel} {e : DirEntry} (hm : s.men c = .high)
    (hr : s.lines.regEnN = .low) (hq : s.devQ = e.mask) : s.motorCondition c = some (conditionOf (e.drive c)) := by
  simp only [State.motorCondition, hm, hr, hq, channelPair_mask]
  cases e.drive c <;> rfl

end Sys2Proof.Machine

/-! PROOFS. The statements of the family 10_state. -/

namespace Sys2Proof.Machine

/-- Settles O45: a reset re-establishes the invariant, and a micro-step and a presentation keep each clause of it. -/
theorem stepKeepsTheInvariant : Obligations.StepKeepsTheInvariant := fun _ _ hi h => hi.after_step h

/-- Settles O17: the frame lemmas of the presentation. -/
theorem presentationFrame : Obligations.PresentationFrame := by
  intro i s t h
  obtain ⟨hl, ht⟩ := exec_lines_trace h
  obtain ⟨hS, hQ, he, hm, hsr, hcfg, hin, hfree⟩ := exec_frame h
  exact ⟨hl, ht, hS, hQ, he, hm, hsr, hcfg, hin, hfree, fun hd => exec_mreg hd h, fun hi => exec_opened_faultHw hi h⟩

/-- Settles O31: without `rst` a run is micro-steps, and each takes one from the steps left. -/
theorem everyCommandReturnsToReady : Obligations.EveryCommandReturnsToReady := by
  intro s hr
  refine ⟨⟨_, run_eq_microSteps le_rfl hr, Seq.remaining_eq_zero ?_⟩, fun k hk =>
    ⟨_, run_eq_microSteps hk.le (hr.mono hk.le), fun hready => ?_⟩⟩
  · exact (microSteps_remaining le_rfl).trans (Nat.sub_self _)
  · have hrem := microSteps_remaining hk.le
    rw [show (microSteps k s).seq = .ready from hready] at hrem
    exact absurd hrem.symm (Nat.sub_ne_zero_of_lt hk)

/-- Settles O33: of what a step can do, only `SHIELD(on)` and a reset write `enabled`. -/
theorem onlyShieldWritesEnabled : Obligations.OnlyShieldWritesEnabled := by
  intro s t h
  rcases step_cases h with ⟨hr, rfl⟩ | ⟨hr, -, rfl⟩ | ⟨hr, hs, rfl⟩ | ⟨hr, hs, w, -, hx⟩
  · exact .inl ⟨hr, rfl⟩
  · by_cases hp : ∃ on, s.seq = .shield on
    · obtain ⟨on, hp⟩ := hp
      exact .inr (.inl ⟨hr, on, hp, by simp [microStep, hp]⟩)
    · rw [not_exists] at hp
      exact .inr (.inr ⟨hr, hp, microStep_enabled_of_ne (s := popInput s) hp⟩)
  · exact .inr (.inr ⟨hr, by simp [hs], rfl⟩)
  · obtain ⟨-, -, he, -⟩ := exec_frame hx
    exact .inr (.inr ⟨hr, by simp [hs], he⟩)

/-- Settles O34: of what a step can do, only `RW_RECORD` and a reset write `lastMask`. -/
theorem onlyRecordWritesLastMask : Obligations.OnlyRecordWritesLastMask := by
  intro s t h
  rcases step_cases h with ⟨hr, rfl⟩ | ⟨hr, -, rfl⟩ | ⟨hr, hs, rfl⟩ | ⟨hr, hs, w, -, hx⟩
  · exact .inl ⟨hr, rfl⟩
  · rw [microStep_lastMask, popInput_seq]
    by_cases hp : s.seq = .rwRecord
    · exact .inr (.inl ⟨hr, hp, by rw [if_pos hp]; rfl⟩)
    · exact .inr (.inr ⟨hr, hp, by rw [if_neg hp]; rfl⟩)
  · exact .inr (.inr ⟨hr, by simp [hs], rfl⟩)
  · obtain ⟨-, -, -, hm, -⟩ := exec_frame hx
    exact .inr (.inr ⟨hr, by simp [hs], hm⟩)

/-- Settles O35: a micro-step leaves `opened` alone, and a presentation sets it only by accepting `INIT`. -/
theorem onlyInitOpens : Obligations.OnlyInitOpens := by
  intro s t h hr
  rcases step_cases h with ⟨hr', -⟩ | ⟨-, -, rfl⟩ | ⟨-, -, rfl⟩ | ⟨-, hs, w, hw, hx⟩
  · simp [show (presented s).rst = false from hr] at hr'
  · obtain ⟨ho, -⟩ := microStep_frame (popInput s)
    rw [ho, popInput_opened]
    exact ⟨id, fun hno hyes => by simp [hno] at hyes⟩
  · exact ⟨id, fun hno hyes => by simp [hno] at hyes⟩
  · obtain ⟨hkeep, hset⟩ := exec_opened hx
    refine ⟨hkeep, fun hno hyes => ?_⟩
    obtain ⟨hi, ha, hg⟩ := hset hno hyes
    exact ⟨hs, ((acceptsInit_iff _).1 ha).2, hg, w, hw, hi⟩

/-- Settles O38: no step writes the parameters. -/
theorem parametersNeverChange : Obligations.ParametersNeverChange := by
  intro n s t h
  exact run_keeps (P := fun u => u.cfg = s.cfg) (fun u v hu hx => (step_cfg hx).trans hu) rfl h

/-- Settles O39: with other status bits a step takes the same case. -/
theorem statusBitsSteerNothing : Obligations.StatusBitsSteerNothing :=
  fun _ _ e m h => step_withStatus e m h

/-- Settles O43: the invariant holds along the run, and in `READY` it says so. -/
theorem readyLinesAtRest : Obligations.ReadyLinesAtRest := by
  intro n s t hs h ht
  have hi : t.Inv := run_keeps (fun _ _ hu hx => hu.after_step hx) hs.inv h
  have he := hi.enables
  rw [ht] at he
  obtain ⟨-, h2, h3, h4⟩ := (t.menAll_iff _).1 he
  exact ⟨hi.clock_low (by rw [ht]; rfl), hi.latchHighLatched, hi.dataAtRest (.inl (by rw [ht]; rfl)) (by simp [ht]),
    h2.symm, h2.trans h3.symm, h3.trans h4.symm⟩

/-- Settles O57: the invariant's clause on the motor enables, at the positions of the shifter. -/
theorem frameIsTransmittingWithEnablesHigh : Obligations.FrameIsTransmittingWithEnablesHigh := by
  intro s hi ht
  exact ⟨(s.view_transmitting_iff).2 ht, fun hb => State.men_of_menAll (hi.enables_of_shifterBusy hb)⟩

/-- Settles O6: the case of the step is idle, or the micro-step of the command in flight. -/
theorem stepsThatPresentNothing : Obligations.StepsThatPresentNothing := by
  refine ⟨fun s hs hp => ?_, fun s word rest hs => step_micro (noResetNow_of_inputs rfl) hs⟩
  simp [step, stepCase, hs, hp, popInput]

/-- Settles O8: the fields of `State.reset`, read off. -/
theorem resetValues : Obligations.ResetValues := ⟨rfl, rfl, rfl, rfl, rfl, rfl, rfl, rfl, rfl⟩

/-- Settles O44: power-on leaves one of the states a reset can leave, and these meet the invariant. -/
theorem resetMeetsTheInvariant : Obligations.ResetMeetsTheInvariant :=
  ⟨reset_afterReset.inv, fun _ h => h.inv⟩

/-- Settles O53, row by row; the two examples are in `READY` with all lines low. -/
theorem viewAsTabled : Obligations.ViewAsTabled := by
  intro s
  refine ⟨s.view_transmitting_iff.trans s.seq.transmitting_iff, s.view_idle_iff, s.view_running_iff, ?_, ?_⟩
  · cases s.view <;> simp
  · rintro ⟨hl, he, -, -, -, hs, -, -⟩
    exact ⟨s.view_idle_iff.2 ⟨hs, he, State.men_allLow hl⟩,
      (initResult s).view_idle_iff.2 ⟨rfl, he, State.men_allLow rfl⟩⟩

/-- Settles O56: after a direction the device holds the mask behind driven outputs, and after a stop no channel is
powered. -/
theorem motionCommandsEndAsTabled : Obligations.MotionCommandsEndAsTabled := by
  intro s
  have hhigh : ∀ d c, (directionResult (s.cfg.dirMask d) s).men c = .high := fun d c => by cases c <;> rfl
  have hlow : ∀ c, (stopResult s).men c = .low := fun c => by cases c <;> rfl
  refine ⟨fun d => ⟨?_, fun c => ?_⟩, ?_, fun c => ?_⟩
  · exact (State.view_running_iff _).2 ⟨rfl, rfl, hhigh d⟩
  · exact State.motorCondition_of_mask (hhigh d c) rfl rfl
  · exact (State.view_idle_iff _).2 ⟨rfl, rfl, hlow⟩
  · exact State.motorCondition_of_low (hlow c)

end Sys2Proof.Machine

/-! SUPPORT. The frame in closed form, the end state of each command, and the target device behind its two lines (R66, R68,
R70, R78). -/

namespace Sys2Proof.Machine

/-! The target device moves on its edges (R72, R73) -/

/-- `RW_LATCH_HI` copies the stages to the outputs, or finds `LATCH` high already (R157). -/
theorem microStep_devQ_of_rwLatchHi {s : State} (hp : s.seq = .rwLatchHi) :
    (microStep s).devQ = s.devS ∨ (microStep s).devQ = s.devQ := by
  cases hl : s.lines.latch <;> simp [microStep, hp, outputLatchAfter, hl]

/-! The content of the target device is never read (R70) -/

/-- The state with another content of the target device. -/
def State.withDevice (s : State) (stages outputs : Byte) : State := { s with devS := stages, devQ := outputs }

theorem presentDirection_withDevice (d : Dir) (s : State) (stages outputs : Byte) :
    presentDirection d (s.withDevice stages outputs) = (presentDirection d s).withDevice stages outputs := by
  have hc : acceptsCommand (s.withDevice stages outputs) = acceptsCommand s := rfl
  unfold presentDirection
  rw [hc]
  split <;> rfl

/-- A presentation neither reads nor moves the device. -/
theorem exec_withDevice {i : Instr} {s t : State} (stages outputs : Byte) (h : exec i s = .next t) :
    exec i (s.withDevice stages outputs) = .next (t.withDevice stages outputs) := by
  have hi : acceptsInit (s.withDevice stages outputs) = acceptsInit s := rfl
  have hc : acceptsCommand (s.withDevice stages outputs) = acceptsCommand s := rfl
  have hg : (s.withDevice stages outputs).cfg = s.cfg := rfl
  cases i with
  | init =>
    simp only [exec, execInit, hi, hg] at h ⊢
    by_cases ha : acceptsInit s = true
    · rw [if_pos ha] at h ⊢
      by_cases hp : s.cfg.gpioPresent = true
      · rw [if_pos hp] at h ⊢; cases h; rfl
      · rw [if_neg hp] at h ⊢; cases h; rfl
    · rw [if_neg ha] at h ⊢; cases h; rfl
  | setForward | setBackward | setTurnLeft | setTurnRight =>
    cases h; exact congrArg _ (presentDirection_withDevice _ _ _ _)
  | motorStop => cases h; simp only [exec, execMotorStop, hc]; split <;> rfl
  | setMotorShield on => cases h; simp only [exec, execSetMotorShield, hc]; split <;> rfl
  | _ => cases h; rfl

/-- The micro-step with another content of the device differs in that content only. -/
theorem microStep_withDevice (s : State) (stages outputs : Byte) :
    ∃ stages' outputs', microStep (s.withDevice stages outputs) = (microStep s).withDevice stages' outputs' := by
  have hseq : (s.withDevice stages outputs).seq = s.seq := rfl
  unfold microStep
  rw [hseq]
  cases s.seq <;> exact ⟨_, _, rfl⟩

theorem step_withDevice {s t : State} (stages outputs : Byte) (h : step s = .next t) :
    ∃ stages' outputs', step (s.withDevice stages outputs) = .next (t.withDevice stages' outputs') := by
  have hcase : stepCase (s.withDevice stages outputs) = stepCase s := rfl
  unfold step at h ⊢
  rw [hcase]
  cases hc : stepCase s with
  | reset => rw [hc] at h; cases h; exact ⟨_, _, rfl⟩
  | micro =>
    rw [hc] at h
    cases h
    obtain ⟨stages', outputs', hm⟩ := microStep_withDevice (popInput s) stages outputs
    exact ⟨_, _, congrArg _ hm⟩
  | idle => rw [hc] at h; cases h; exact ⟨_, _, rfl⟩
  | command i => rw [hc] at h; exact ⟨_, _, exec_withDevice stages outputs h⟩

theorem run_withDevice {n : Nat} {s t : State} (stages outputs : Byte) (h : run n s = .next t) :
    ∃ stages' outputs', run n (s.withDevice stages outputs) = .next (t.withDevice stages' outputs') := by
  induction n generalizing s stages outputs with
  | zero => cases h; exact ⟨_, _, rfl⟩
  | succ n ih =>
    obtain ⟨u, hu⟩ := step_answers s
    obtain ⟨stages', outputs', hu'⟩ := step_withDevice stages outputs hu
    rw [run_succ n hu] at h
    rw [run_succ n hu']
    exact ih stages' outputs' h

/-! The frame in closed form (R78, R102) -/

/-- `RW_LATCH_LO` and the first `j` bit cells of a frame, from any content of the device (R78). -/
theorem microSteps_latchLo_cells {s : State} (hs : s.seq = .rwLatchLo) (hc : s.lines.clock = .low) {j : Nat} (hj : j ≤ 8) :
    microSteps (1 + 4 * j) s =
      { s with
        lines := { s.lines with latch := .low, data := if j = 0 then s.lines.data else bitLevel s.mreg (8 - j) }
        sr := s.mreg <<< j
        trace := s.trace ++ .write .latch .low ::
          ([7, 6, 5, 4, 3, 2, 1, 0].take j).flatMap (fun k => bitCell (bitLevel s.mreg k))
        devS := (s.devS <<< j) ||| (s.mreg >>> (8 - j))
        seq := if h : j < 8 then .rwData ⟨j, h⟩ else .rwLatchHi } := by
  have hlo : microSteps 1 s =
      { s with
        lines := { s.lines with latch := .low }
        sr := s.mreg
        trace := s.trace ++ [.write .latch .low]
        seq := .rwData 0 } := by
    simp [microSteps, microStep, hs, setSeq, Seq.successor, lineWrite, Lines.set]
  rw [microSteps_add, hlo, microSteps_cells rfl (by exact hc) rfl j hj]
  simp

/-- A whole frame, from any content of the device: the mask is staged, then presented at once (R78, R102). -/
theorem microSteps_frame {s : State} (hs : s.seq = .rwLatchLo) (hc : s.lines.clock = .low) :
    microSteps 34 s =
      { s with
        lines := { s.lines with latch := .high, data := bitLevel s.mreg 0 }
        sr := 0x00
        trace := s.trace ++ frameTrace s.mreg
        devS := s.mreg
        devQ := s.mreg
        seq := .rwRecord } := by
  rw [show 34 = (1 + 4 * 8) + 1 from rfl, microSteps_add, microSteps_latchLo_cells hs hc le_rfl]
  have hpush : s.devS <<< 8 = 0 := by ext; simp
  have hout : s.mreg <<< 8 = 0 := by ext; simp
  simp [microSteps, microStep, setSeq, Seq.successor, lineWrite, Lines.set, shiftStageAfter, outputLatchAfter, hpush,
    hout, frameTrace]

/-! The end state of each command (R171, R190 to R194) -/

theorem microSteps_init {s : State} (hs : s.seq = .init 0) (ho : s.opened = true) : microSteps 8 s = initResult s := by
  simp [microSteps, microStep, hs, setSeq, Seq.successor, lineWrite, lineOfNumber, Lines.set, initResult, initTrace,
    Lines.allLow, ho, shiftStageAfter, outputLatchAfter]

theorem microSteps_arm {s : State} (hs : s.seq = .arm .m1) :
    microSteps 4 s =
      { s with
        lines := { s.lines with men1 := .high, men2 := .high, men3 := .high, men4 := .high }
        trace := s.trace ++ enableWrites .high
        seq := .rwLatchLo } := by
  simp [microSteps, microStep, hs, setSeq, Seq.successor, nextChannel, lineWrite, menLine, Lines.set, enableWrites,
    Channel.all, shiftStageAfter, outputLatchAfter]

theorem microSteps_direction {s : State} (hs : s.seq = .arm .m1) (hc : s.lines.clock = .low) :
    microSteps 40 s = directionResult s.mreg s := by
  rw [show 40 = 4 + (34 + 2) from rfl, microSteps_add, microSteps_arm hs, microSteps_add, microSteps_frame rfl (by exact hc)]
  simp [microSteps, microStep, setSeq, Seq.successor, lineWrite, Lines.set, shieldLevel, shiftStageAfter,
    outputLatchAfter, directionResult, directionTrace, hc]

theorem microSteps_stop {s : State} (hs : s.seq = .stop .m1) : microSteps 5 s = stopResult s := by
  simp [microSteps, microStep, hs, setSeq, Seq.successor, nextChannel, lineWrite, menLine, Lines.set, stopResult,
    stopTrace, enableWrites, Channel.all, shieldLevel, shiftStageAfter, outputLatchAfter]

theorem microSteps_shield {s : State} {on : Bool} (hs : s.seq = .shield on) : microSteps 1 s = shieldResult on s := by
  simp [microSteps, microStep, hs, setSeq, Seq.successor, lineWrite, Lines.set, shieldResult, shiftStageAfter,
    outputLatchAfter]

/-- The state an accepted command ends in, from the spec's tables; a reserved word changes nothing. -/
def commandResult (i : Instr) (s : State) : State :=
  match i with
  | .init => initResult s
  | .setForward => directionResult (s.cfg.dirMask .forward) s
  | .setBackward => directionResult (s.cfg.dirMask .backward) s
  | .setTurnLeft => directionResult (s.cfg.dirMask .turnLeft) s
  | .setTurnRight => directionResult (s.cfg.dirMask .turnRight) s
  | .motorStop => stopResult s
  | .setMotorShield on => shieldResult on s
  | .reserved1 | .reserved3 | .reserved5 | .reserved7 | .reserved9 | .reservedB | .reservedE _ => s

/-- The states in which every command that is not reserved is accepted and runs to its tabled end. -/
structure State.Serves (s : State) : Prop where
  ready : s.seq = .ready
  noFault : s.faultHw = false
  opened : s.opened = true
  present : s.cfg.gpioPresent = true
  clockLow : s.lines.clock = .low

/-- A command that is not reserved is accepted and ends in its tabled state. -/
theorem State.Serves.completes {s : State} (h : s.Serves) {i : Instr} (hi : i.isReserved = false) :
    ∃ t, exec i s = .next t ∧ microSteps t.seq.remaining t = commandResult i s := by
  obtain ⟨hs, hf, ho, hg, hc⟩ := h
  have hcmd : acceptsCommand s = true := (acceptsCommand_iff s).2 ⟨hs, hf, ho⟩
  have dir (d : Dir) : ∃ t, Host.Outcome.next (presentDirection d s) = (.next t : Host.Outcome State Fault Refusal) ∧
      microSteps t.seq.remaining t = directionResult (s.cfg.dirMask d) s :=
    ⟨_, congrArg _ (if_pos hcmd), microSteps_direction rfl hc⟩
  cases i with
  | init =>
    have hinit : acceptsInit s = true := (acceptsInit_iff s).2 ⟨hs, hf⟩
    exact ⟨{ s with opened := true, seq := .init 0 }, by rw [exec, execInit, if_pos hinit, if_pos hg],
      microSteps_init rfl rfl⟩
  | setForward => exact dir .forward
  | setBackward => exact dir .backward
  | setTurnLeft => exact dir .turnLeft
  | setTurnRight => exact dir .turnRight
  | motorStop => exact ⟨setSeq s (.stop .m1), congrArg Host.Outcome.next (if_pos hcmd), microSteps_stop rfl⟩
  | setMotorShield on => exact ⟨setSeq s (.shield on), congrArg Host.Outcome.next (if_pos hcmd), microSteps_shield rfl⟩
  | _ => cases hi

/-- After a command the next one can be taken. -/
theorem State.Serves.after_command {s : State} (h : s.Serves) (i : Instr) : (commandResult i s).Serves := by
  obtain ⟨hs, hf, ho, hg, hc⟩ := h
  cases i with
  | init => exact ⟨rfl, hf, rfl, hg, rfl⟩
  | setForward | setBackward | setTurnLeft | setTurnRight => exact ⟨rfl, hf, ho, hg, rfl⟩
  | motorStop | setMotorShield _ => exact ⟨rfl, hf, ho, hg, hc⟩
  | _ => exact ⟨hs, hf, ho, hg, hc⟩

/-- The tabled end states are idempotent in everything but the trace (R68). -/
theorem commandResult_twice (i : Instr) (s : State) :
    (commandResult i (commandResult i s)).lines = (commandResult i s).lines ∧
      (commandResult i (commandResult i s)).enabled = (commandResult i s).enabled ∧
      (commandResult i (commandResult i s)).lastMask = (commandResult i s).lastMask ∧
      (commandResult i (commandResult i s)).devS = (commandResult i s).devS ∧
      (commandResult i (commandResult i s)).devQ = (commandResult i s).devQ := by
  cases i <;> exact ⟨rfl, rfl, rfl, rfl, rfl⟩

/-- A machine that meets the invariant, opened, in `READY` and without a fault can take every command. -/
theorem State.Inv.serves {s : State} (hi : s.Inv) (hs : s.seq = .ready) (hf : s.faultHw = false)
    (ho : s.opened = true) : s.Serves :=
  ⟨hs, hf, ho, hi.openedPresent ho, hi.clock_low (by rw [hs]; rfl)⟩

/-! The motor condition (R76, R77) -/

/-- A powered channel with the outputs not driven has no condition (R77, log entry 16). -/
theorem State.motorCondition_of_undriven {s : State} {c : Channel} (hm : s.men c = .high) (hr : s.lines.regEnN = .high) :
    s.motorCondition c = none := by
  simp [State.motorCondition, hm, hr]

/-- The condition of a powered channel behind driven outputs, by its two bits: bit A alone, bit B alone, or neither; both
have none (R77). -/
theorem State.motorCondition_of_driven {s : State} {c : Channel} {a b : Bool} (hm : s.men c = .high)
    (hr : s.lines.regEnN = .low) (ha : (s.devQ &&& c.bitA != 0) = a) (hb : (s.devQ &&& c.bitB != 0) = b) :
    s.motorCondition c =
      if a && b then none else some (if a then .dirA else if b then .dirB else .coast) := by
  simp only [State.motorCondition, hm, hr, channelPair, ha, hb]
  cases a <;> cases b <;> rfl

end Sys2Proof.Machine

/-! PROOFS. The statements of the family 20_memory. -/

namespace Sys2Proof.Machine

/-- Settles O37: of what a step can do, only the two rising edges move the device. -/
theorem deviceMovesOnlyOnItsEdges : Obligations.DeviceMovesOnlyOnItsEdges := by
  intro s t h
  rcases step_cases h with ⟨-, rfl⟩ | ⟨-, -, rfl⟩ | ⟨-, -, rfl⟩ | ⟨-, -, w, -, hx⟩
  · exact ⟨.inl rfl, .inl rfl⟩
  · constructor
    · by_cases hp : s.seq = .rwLatchHi
      · exact (microStep_devQ_of_rwLatchHi (s := popInput s) hp).symm.imp id fun hQ => ⟨hp, hQ⟩
      · exact .inl (microStep_devQ_of_ne (s := popInput s) hp)
    · by_cases hp : ∃ i, s.seq = .rwClkHi i
      · exact .inr hp
      · exact .inl (microStep_devS_of_ne (s := popInput s) (not_exists.1 hp))
  · exact ⟨.inl rfl, .inl rfl⟩
  · obtain ⟨hS, hQ, -⟩ := exec_frame hx
    exact ⟨.inl hQ, .inl hS⟩

/-- Settles O40: with another content of the device each step of the run takes the same case. -/
theorem deviceIsNeverRead : Obligations.DeviceIsNeverRead := by
  intro n s t stages outputs h
  obtain ⟨stages', outputs', h'⟩ := run_withDevice stages outputs h
  exact ⟨_, h', rfl⟩

/-- Settles O41: without `rst` the run is micro-steps, and these are the frame in closed form. -/
theorem frameFillsTheDevice : Obligations.FrameFillsTheDevice := by
  intro s hs hc hr
  have hrem : s.seq.remaining = 36 := by rw [hs]; rfl
  refine ⟨fun j hj => ⟨_, run_eq_microSteps (by omega) (hr.mono (by omega)), ?_⟩,
    ⟨_, run_eq_microSteps (by omega) hr, ?_⟩⟩
  · rw [microSteps_latchLo_cells hs hc hj]
    exact ⟨rfl, rfl, rfl⟩
  · rw [microSteps_frame hs hc]
    exact ⟨rfl, rfl, rfl, rfl⟩

/-- Settles O42: the invariant holds along the run, and between frames it says so. -/
theorem deviceHoldsLastMask : Obligations.DeviceHoldsLastMask := by
  intro n s t hs h ht hl
  have hi : t.Inv := run_keeps (fun _ _ hu hx => hu.after_step hx) hs.inv h
  exact hi.deviceHolds hl (by rw [ht]; rfl)

/-- Settles O58: the command runs to its tabled end state twice, and the second time that state is the same. -/
theorem commandsAreIdempotent : Obligations.CommandsAreIdempotent := by
  intro i s hres hi hs hf ho
  have h1 := hi.serves hs hf ho
  have h2 := h1.after_command i
  obtain ⟨t, ht, hu⟩ := h1.completes hres
  obtain ⟨t', ht', hu'⟩ := h2.completes hres
  exact ⟨t, commandResult i s, t', commandResult i (commandResult i s), ht, hu.symm, h2.ready, ht', hu'.symm,
    (h2.after_command i).ready, commandResult_twice i s⟩

/-- Settles O52: a write of `REG_EN_n` makes an edge on neither `CLOCK` nor `LATCH`. -/
theorem outputEnableGatesTheOutputs : Obligations.OutputEnableGatesTheOutputs := by
  intro s
  refine ⟨fun hr => if_pos hr, fun hr => if_neg (by simp [hr]), fun v => ⟨?_, ?_⟩⟩
  · exact (lineWrite_devS s .regEnN v).trans (shiftStageAfter_eq_self (.inl (by decide)))
  · exact (lineWrite_devQ s .regEnN v).trans (outputLatchAfter_eq_self (.inl (by decide)))

/-- Settles O54: the enable, then `REG_EN_n`, then the channel pair. -/
theorem motorConditionAsTabled : Obligations.MotorConditionAsTabled := by
  intro s c
  refine ⟨State.motorCondition_of_low, State.motorCondition_of_undriven, fun hm hr =>
    ⟨fun ha hb => ?_, fun ha hb => ?_, fun ha hb => ?_, fun ha hb => ?_⟩⟩
  · exact State.motorCondition_of_driven hm hr (bne_eq_false_iff_eq.2 ha) (bne_eq_false_iff_eq.2 hb)
  · exact State.motorCondition_of_driven hm hr (bne_iff_ne.2 ha) (bne_eq_false_iff_eq.2 hb)
  · exact State.motorCondition_of_driven hm hr (bne_eq_false_iff_eq.2 ha) (bne_iff_ne.2 hb)
  · exact State.motorCondition_of_driven hm hr (bne_iff_ne.2 ha) (bne_iff_ne.2 hb)

end Sys2Proof.Machine

/-! SUPPORT. The encoding, said once: decoding and encoding are inverse to each other on the command words, the numbers that
stand for an instruction, the rows of the opcode table at an instruction's word, and the presentation of a reserved word. -/

namespace Sys2Proof

/-- Every command word is the word of the instruction it decodes to (R111, R112). -/
@[simp] theorem encode_decode : ∀ w : Cmd, encode (decode w) = w := by decide

/-- The word of an instruction is the only one that decodes to it. -/
theorem decode_eq_iff {w : Cmd} {i : Instr} : decode w = i ↔ encode i = w :=
  ⟨fun h => h ▸ encode_decode w, fun h => h ▸ decode_encode i⟩

/-- A number stands for the command word whose value it is, and for no other (R110). -/
theorem cmdOfBits_eq_ok_iff {n : Nat} {w : Cmd} : cmdOfBits n = .ok w ↔ w.toNat = n := by
  constructor
  · intro h
    unfold cmdOfBits at h
    split at h
    · next hn =>
      cases h
      exact (BitVec.toNat_ofNat n 4).trans (Nat.mod_eq_of_lt hn)
    · cases h
  · rintro rfl
    exact cmdOfBits_toNat w

/-- A number decodes to an instruction exactly where its low `nbits` bits are the instruction's word (R110 to R112). -/
theorem decodeTableWord_eq_some_iff {nbits n : Nat} {i : Instr} :
    decodeTableWord nbits n = some i ↔ (encode i).toNat = n % 2 ^ nbits := by
  rw [← cmdOfBits_eq_ok_iff]
  cases h : cmdOfBits (n % 2 ^ nbits) with
  | ok w => simp [decodeTableWord, decodeBits, h, decode_eq_iff, eq_comm (a := w)]
  | error e => simp [decodeTableWord, decodeBits, h]

/-- A number is refused exactly where its low `nbits` bits reach beyond the four-bit port (R35, log entry 21). -/
theorem decodeTableWord_eq_none_iff {nbits n : Nat} : decodeTableWord nbits n = none ↔ 16 ≤ n % 2 ^ nbits := by
  rw [Option.eq_none_iff_forall_ne_some]
  simp only [ne_eq, decodeTableWord_eq_some_iff]
  constructor
  · intro h
    by_contra! hn
    refine h (decode (BitVec.ofNat 4 (n % 2 ^ nbits))) ?_
    rw [encode_decode]
    exact cmdOfBits_eq_ok_iff.1 (if_pos hn)
  · intro h i hi
    have := (encode i).isLt
    omega

/-- The word of an instruction matches the instruction's row of the opcode table and no other (spec/opcode_table.json). -/
theorem opcodeRow_hits_encode_iff (i : Instr) (n : Fin 14) :
    (opcodeTable[n.val]?).any (fun r => r.hits (encode i)) = true ↔ i.rowNumber = n := by
  revert n
  cases i with
  | setMotorShield on => cases on <;> decide
  | reservedE arg => cases arg <;> decide
  | _ => decide

/-- Bit 0 of a `SET_MOTOR_SHIELD` word is the operand (R110). -/
@[simp] theorem encode_setMotorShield_getLsbD_zero (on : Bool) : (encode (.setMotorShield on)).getLsbD 0 = on := by
  cases on <;> rfl

/-- The presentation of a reserved word changes nothing (R112). -/
theorem Machine.exec_of_isReserved {i : Instr} (h : i.isReserved = true) (s : State) : exec i s = .next s := by
  cases i with
  | init | setForward | setBackward | setTurnLeft | setTurnRight | motorStop | setMotorShield _ => cases h
  | _ => rfl

end Sys2Proof

/-! PROOFS. The statements of the family 30_encoding. -/

namespace Sys2Proof.Machine

/-- Settles O2: a number decodes to an instruction exactly where its low bits are the instruction's word, and four bits hold
every word. -/
theorem decodeAndEncodeAgree : Obligations.DecodeAndEncodeAgree :=
  ⟨fun i _ hn => decodeTableWord_eq_some_iff.2 (cmd_toNat_mod hn (encode i)).symm,
    fun _ _ _ => decodeTableWord_eq_some_iff.1, fun _ _ => decodeTableWord_eq_none_iff⟩

/-- Settles O1: each of the sixteen words is the word of the instruction beside it. -/
theorem wordsDecodeAsTabled : Obligations.WordsDecodeAsTabled :=
  ⟨decode_encode .init, decode_encode .setForward, decode_encode .setBackward, decode_encode .setTurnLeft,
    decode_encode .setTurnRight, decode_encode .motorStop, decode_encode (.setMotorShield false),
    decode_encode (.setMotorShield true), decode_encode .reserved1, decode_encode .reserved3, decode_encode .reserved5,
    decode_encode .reserved7, decode_encode .reserved9, decode_encode .reservedB, decode_encode (.reservedE false),
    decode_encode (.reservedE true)⟩

/-- Settles O3: every word is the word of the instruction it decodes to, and that one matches its own row alone. -/
theorem everyWordMatchesOneRow : Obligations.EveryWordMatchesOneRow := by
  intro w n
  simpa using opcodeRow_hits_encode_iff (decode w) n

/-- Settles O4: a word that decodes to `SET_MOTOR_SHIELD on` is the word of that instruction. -/
theorem shieldOperandIsInverted : Obligations.ShieldOperandIsInverted := by
  refine ⟨fun w on h => ?_, rfl, rfl⟩
  rw [← decode_eq_iff.1 h, encode_setMotorShield_getLsbD_zero]

/-- Settles O15: all seven patterns are reserved. -/
theorem reservedWordsHaveNoEffect : Obligations.ReservedWordsHaveNoEffect := fun s =>
  ⟨exec_of_isReserved rfl s, exec_of_isReserved rfl s, exec_of_isReserved rfl s, exec_of_isReserved rfl s,
    exec_of_isReserved rfl s, exec_of_isReserved rfl s, exec_of_isReserved rfl s, exec_of_isReserved rfl s⟩

/-- Settles O48: the table is the definition of the channel bits. -/
theorem channelBitsAsTabled : Obligations.ChannelBitsAsTabled := ⟨rfl, rfl, rfl, rfl, rfl, rfl, rfl, rfl⟩

/-- Settles O49: the entry of `Forward` has the bits of the expression; `0x35` sets at most one bit of each channel, so it is
the mask of an entry. -/
theorem forwardMaskIsTheExpression : Obligations.ForwardMaskIsTheExpression :=
  ⟨rfl, rfl, rfl, { resetConfig with forward := .ofMask 0x35 }, DirEntry.mask_ofMask 0x35 (by decide)⟩

end Sys2Proof.Machine

/-! SUPPORT. The two edges of the target device by the levels before and after a line write, and the positions at
which the status is the old one (R72, R73, R134). -/

namespace Sys2Proof.Machine

/-- A rising edge is a write of `High` over `Low` (R12). -/
theorem rises_iff (old new : Level) : rises old new = true ↔ old = .low ∧ new = .high := by
  simp [rises]

/-- The shift stage takes the level of `DATA` as its new bit 0 (R72). -/
theorem shiftIn_bit (stages : Byte) (v : Level) :
    shiftIn stages v.bit = (stages <<< 1) ||| (if v = .high then 0x01 else 0x00) := by
  cases v <;> rfl

theorem State.ready_eq_decide (s : State) : s.ready = decide (s.seq = .ready) :=
  Bool.eq_iff_iff.2 (s.ready_iff.trans decide_eq_true_iff.symm)

/-- `READY` is no position of a directional command (R32). -/
theorem Seq.ne_ready_of_transmitting {p : Seq} (h : p.transmitting = true) : p ≠ .ready := by
  rintro rfl
  cases h

/-- `SHIELD(on)` is not among the positions of a directional command that the status is stated for (R32). -/
theorem Seq.ne_shield_of_transmitting {p : Seq} (h : p.transmitting = true) (on : Bool) : p ≠ .shield on := by
  rintro rfl
  cases h

end Sys2Proof.Machine

/-! PROOFS. The statements of the family 40_line_primitives. -/

namespace Sys2Proof.Machine

/-- Settles O51: a step of a directional command in flight is its micro-step, which writes `enabled` at `SHIELD(on)` only and
`lastMask` at `RW_RECORD` only. -/
theorem statusShowsTheRegisters : Obligations.StatusShowsTheRegisters := by
  refine ⟨fun s => ?_, fun s t hr h ht => ?_, rfl⟩
  · rw [State.status, State.ready_eq_decide]
  · rw [step_micro hr (Seq.ne_ready_of_transmitting ht)] at h
    cases h
    exact ⟨microStep_enabled_of_ne (s := popInput s) (Seq.ne_shield_of_transmitting ht),
      fun hp => (microStep_lastMask (popInput s)).trans (if_neg hp)⟩

/-- Settles O9: a step and a presentation always answer. -/
theorem nothingStopsTheMachine : Obligations.NothingStopsTheMachine := fun s =>
  ⟨step_answers s, fun i => exec_answers i s⟩

/-- Settles O18: the lines are a store, and each of the two stages of the device moves on its own line's rising edge. -/
theorem lineWriteDoesItsPseudocode : Obligations.LineWriteDoesItsPseudocode := by
  intro s l v
  refine ⟨Lines.get_set_same s.lines l v, fun k hk => Lines.get_set_other s.lines v hk, lineWrite_trace s l v, ?_, ?_, rfl⟩
  · simp only [lineWrite_devS, shiftStageAfter, rises_iff, shiftIn_bit]
  · simp only [lineWrite_devQ, outputLatchAfter, rises_iff]

/-- Settles O19: an accepted instance keeps the settle delay it was given, and is well formed only where that is not zero. -/
theorem settleOnlyRecords : Obligations.SettleOnlyRecords := by
  refine ⟨fun _ => rfl, fun r c h => ?_, fun _ _ => rfl⟩
  obtain ⟨⟨-, hpos⟩, -, -, hset, -⟩ := Config.check_ok h
  exact ⟨Nat.one_le_iff_ne_zero.1 (hset ▸ hpos), hset⟩

end Sys2Proof.Machine

/-! SUPPORT. A line write by the edge it makes at the target device, the step at a position in flight, and the bit that is
sent (R12, R28(c), R72, R73, R130, R152). -/

namespace Sys2Proof.Machine

/-! A line write by the edge it makes (R72, R73, R130) -/

/-- A write that is no rising edge of `CLOCK` or `LATCH` moves the line and is recorded, and the target device ignores it. -/
theorem lineWrite_of_no_edge {s : State} {l : Line} {v : Level} (hc : l ≠ .clock ∨ rises s.lines.clock v = false)
    (hl : l ≠ .latch ∨ rises s.lines.latch v = false) :
    lineWrite s l v = { s with lines := s.lines.set l v, trace := s.trace ++ [.write l v] } := by
  rw [lineWrite, shiftStageAfter_eq_self hc, outputLatchAfter_eq_self hl]

theorem lineWrite_low (s : State) (l : Line) :
    lineWrite s l .low = { s with lines := s.lines.set l .low, trace := s.trace ++ [.write l .low] } :=
  lineWrite_of_no_edge (.inr (rises_to_low _)) (.inr (rises_to_low _))

/-- A rising edge of `CLOCK` shifts the level of `DATA` into the target device. -/
theorem lineWrite_clock_rise {s : State} (h : s.lines.clock = .low) :
    lineWrite s .clock .high =
      { s with
        lines := { s.lines with clock := .high }
        trace := s.trace ++ [.write .clock .high]
        devS := (s.devS <<< 1) ||| (if s.lines.data = .high then 0x01 else 0x00) } := by
  have hS : shiftStageAfter s .clock .high = shiftIn s.devS s.lines.data.bit :=
    if_pos ⟨rfl, (rises_iff _ _).2 ⟨h, rfl⟩⟩
  rw [lineWrite, hS, shiftIn_bit, outputLatchAfter_eq_self (.inl (by decide)), Lines.set]

/-- A rising edge of `LATCH` copies the stages of the target device to its outputs. -/
theorem lineWrite_latch_rise {s : State} (h : s.lines.latch = .low) :
    lineWrite s .latch .high =
      { s with
        lines := { s.lines with latch := .high }
        trace := s.trace ++ [.write .latch .high]
        devQ := s.devS } := by
  have hQ : outputLatchAfter s .latch .high = s.devS := if_pos ⟨rfl, (rises_iff _ _).2 ⟨h, rfl⟩⟩
  rw [lineWrite, hQ, shiftStageAfter_eq_self (.inl (by decide)), Lines.set]

/-! The step at a position in flight (R28(c)) -/

/-- Without `rst`, the step at a position other than `READY` is that position's action and moves on to its successor. -/
theorem step_at {s : State} {p : Seq} (hr : NoResetNow s) (hs : s.seq = p) (hp : p ≠ .ready) :
    step s = .next { action p (popInput s) with seq := p.successor } := by
  subst hs
  exact step_micro hr hp

/-- After the falling edge of a cell comes the next cell, after the last one the latch (R155). -/
theorem Seq.successor_rwClkLo : ∀ i : Fin 8,
    (Seq.rwClkLo i).successor = if i.val < 7 then .rwData (i + 1) else .rwLatchHi := by
  decide

/-! The bit that is sent (R152) -/

/-- The masked byte is `0x80` exactly where bit 7 is set. -/
theorem topBit_eq_iff (v : Byte) : v &&& 0x80 = 0x80 ↔ v.getLsbD 7 = true := by
  revert v
  decide

/-- After `i` shifts to the left, the top bit of a mask is its bit `7 - i`. -/
theorem getLsbD_seven_shiftLeft (m : Byte) (i : Fin 8) : (m <<< i.val).getLsbD 7 = m.getLsbD (7 - i.val) := by
  rw [BitVec.getLsbD_shiftLeft]
  simp [show ¬ 7 < i.val by omega]

end Sys2Proof.Machine

/-! PROOFS. The statements of the family 41_shifter. -/

namespace Sys2Proof.Machine

/-- Settles O23: the invariant says how far `sr` has moved, so its top bit is the next bit of the mask. -/
theorem dataStepSendsTheBit : Obligations.DataStepSendsTheBit := by
  intro s i hi hr hs
  have hshifter : ShifterAt s (.rwData i) := hs ▸ hi.shifter
  obtain ⟨hsr, -⟩ := hshifter
  refine ⟨hsr, ?_, ?_, ?_⟩
  · rw [step_at hr hs (by simp), action_rwData, lineWrite_of_no_edge (.inl (by decide)) (.inl (by decide))]
    rfl
  · rw [hsr, topBit_eq_iff, getLsbD_seven_shiftLeft]
  · rintro rfl
    rw [hsr, ← BitVec.shiftLeft_add]
    exact BitVec.shiftLeft_eq_zero le_rfl

/-- Settles O22: the write of `LATCH` is to `Low`, which the device ignores. -/
theorem latchLowStepLoadsTheMask : Obligations.LatchLowStepLoadsTheMask := by
  intro s hr hs
  rw [step_at hr hs (by simp), action_rwLatchLo, lineWrite_low]
  rfl

/-- Settles O24: by the invariant `CLOCK` is `Low` and `DATA` holds the bit, so the write is a rising edge. -/
theorem clockHighStepShiftsTheDevice : Obligations.ClockHighStepShiftsTheDevice := by
  intro s i hi hr hs
  have hclk : s.lines.clock = .low := hi.clock_low (by rw [hs]; rfl)
  have hshifter : ShifterAt s (.rwClkHi i) := hs ▸ hi.shifter
  obtain ⟨-, -, hdata⟩ := hshifter
  refine ⟨hclk, hdata, ?_⟩
  rw [step_at hr hs (by simp), action_rwClkHi, lineWrite_clock_rise (by exact hclk)]
  rfl

/-- Settles O25: the settle delay is an event of the trace and no write. -/
theorem settleStepOnlyWaits : Obligations.SettleStepOnlyWaits := by
  intro s i hr hs
  rw [step_at hr hs (by simp), action_rwSettle]
  rfl

/-- Settles O26: the write of `CLOCK` is to `Low`, which the device ignores; the last cell is the one with `i = 7`. -/
theorem clockLowStepMovesOn : Obligations.ClockLowStepMovesOn := by
  intro s i hr hs
  rw [step_at hr hs (by simp), action_rwClkLo, lineWrite_low, Seq.successor_rwClkLo]
  rfl

/-- Settles O27: by the latch discipline `LATCH` is `Low`, so the write is a rising edge. -/
theorem latchHighStepPresentsTheMask : Obligations.LatchHighStepPresentsTheMask := by
  intro s hi hr hs
  have hlatch : s.lines.latch = .low := hi.latchLow (by rw [hs]; rfl)
  refine ⟨hlatch, ?_⟩
  rw [step_at hr hs (by simp), action_rwLatchHi, lineWrite_latch_rise (by exact hlatch)]
  rfl

/-- Settles O28: the position writes `lastMask` and no line. -/
theorem recordStepKeepsTheOriginalMask : Obligations.RecordStepKeepsTheOriginalMask := by
  intro s hr hs
  rw [step_at hr hs (by simp), action_rwRecord]
  rfl

end Sys2Proof.Machine

/-! SUPPORT. The acceptance of a direction, its run to `READY`, and the write of a motor enable (R150, R170, R171, R193). -/

namespace Sys2Proof.Machine

/-- Each directional command presents the direction it is paired with (R172 to R175). -/
theorem exec_directional {i : Instr} {d : Dir} (h : (i, d) ∈ directionalCommands) (s : State) :
    exec i s = .next (presentDirection d s) := by
  simp only [directionalCommands, List.mem_cons, Prod.mk.injEq, List.not_mem_nil, or_false] at h
  rcases h with ⟨rfl, rfl⟩ | ⟨rfl, rfl⟩ | ⟨rfl, rfl⟩ | ⟨rfl, rfl⟩ <;> rfl

/-- A direction that is accepted loads its mask and goes to `ARM(1)`. -/
theorem presentDirection_of_accepts (d : Dir) {s : State} (h : acceptsCommand s = true) :
    presentDirection d s = { s with mreg := s.cfg.dirMask d, seq := .arm .m1 } :=
  if_pos h

/-- From `ARM(1)` with `CLOCK` low, 40 steps without `rst` end in the state R171 tables. -/
theorem run_direction {s : State} (hs : s.seq = .arm .m1) (hc : s.lines.clock = .low) (hr : NoReset 40 s) :
    run 40 s = .next { directionResult s.mreg s with inputs := s.inputs.drop 40 } := by
  have hrem : 40 ≤ s.seq.remaining := by simp [hs, Seq.remaining]
  rw [run_eq_microSteps hrem hr, microSteps_direction hs hc]

/-- The target device ignores the motor enables. -/
theorem lineWrite_menLine (s : State) (c : Channel) (v : Level) :
    lineWrite s (menLine c) v =
      { s with lines := s.lines.set (menLine c) v, trace := s.trace ++ [.write (menLine c) v] } :=
  lineWrite_of_no_edge (.inl (menLine_ne_clock c)) (.inl (menLine_ne_latch c))

end Sys2Proof.Machine

/-! PROOFS. The statements of the family 42_motion_commands. -/

namespace Sys2Proof.Machine

/-- Settles O12: the acceptance leads to `ARM(1)`, and from there the 40 micro-steps are four enable writes, a frame, the
record and the shield. -/
theorem directionalCommandsRunToTheirEnd : Obligations.DirectionalCommandsRunToTheirEnd := by
  intro i d s hid hs hf ho hc hr
  have haccept : acceptsCommand s = true := (acceptsCommand_iff s).2 ⟨hs, hf, ho⟩
  refine ⟨_, ?_, rfl, run_direction rfl hc hr⟩
  rw [exec_directional hid, presentDirection_of_accepts d haccept]

/-- Settles O20: the write moves one motor enable and is no edge of the device; the successor depends on the channel. -/
theorem enableStepsAscend : Obligations.EnableStepsAscend := by
  intro s c hr
  refine ⟨fun hs => ?_, fun hs => ?_⟩
  · rw [step_at hr hs (by simp), action_arm, lineWrite_menLine]
    cases c <;> rfl
  · rw [step_at hr hs (by simp), action_stop, lineWrite_menLine]
    cases c <;> rfl

end Sys2Proof.Machine

/-! SUPPORT. The acceptance of a control command, its run to `READY`, and a run that goes on after another one (R28, R190 to
R194). -/

namespace Sys2Proof.Machine

/-! Acceptance (R28(a)) -/

/-- With a GPIO controller, an `INIT` that is accepted sets `opened` and goes to `INIT(0)`, whatever `opened` was (R190). -/
theorem exec_init_of_accepts {s : State} (h : acceptsInit s = true) (hg : s.cfg.gpioPresent = true) :
    exec .init s = .next { s with opened := true, seq := .init 0 } := by
  rw [exec, execInit, if_pos h, if_pos hg]

theorem exec_motorStop_of_accepts {s : State} (h : acceptsCommand s = true) :
    exec .motorStop s = .next { s with seq := .stop .m1 } :=
  congrArg Host.Outcome.next (if_pos h)

theorem exec_setMotorShield_of_accepts (on : Bool) {s : State} (h : acceptsCommand s = true) :
    exec (.setMotorShield on) s = .next { s with seq := .shield on } :=
  congrArg Host.Outcome.next (if_pos h)

/-! From the first position of a control command to `READY` -/

theorem run_init {s : State} (hs : s.seq = .init 0) (ho : s.opened = true) (hr : NoReset 8 s) :
    run 8 s = .next { initResult s with inputs := s.inputs.drop 8 } := by
  rw [run_eq_microSteps (by simp [hs, Seq.remaining]) hr, microSteps_init hs ho]

theorem run_stop {s : State} (hs : s.seq = .stop .m1) (hr : NoReset 5 s) :
    run 5 s = .next { stopResult s with inputs := s.inputs.drop 5 } := by
  rw [run_eq_microSteps (by simp [hs, Seq.remaining]) hr, microSteps_stop hs]

theorem run_shield {s : State} {on : Bool} (hs : s.seq = .shield on) (hr : NoReset 1 s) :
    run 1 s = .next { shieldResult on s with inputs := s.inputs.drop 1 } := by
  rw [run_eq_microSteps (by simp [hs, Seq.remaining]) hr, microSteps_shield hs]

/-! A run that goes on after another one -/

theorem run_add {m n : Nat} {s t : State} (h : run m s = .next t) : run (m + n) s = run n t := by
  induction m generalizing s with
  | zero => cases h; rw [Nat.zero_add]
  | succ m ih =>
    obtain ⟨u, hu⟩ := step_answers s
    rw [run_succ m hu] at h
    rw [Nat.add_right_comm, run_succ (m + n) hu, ih h]

theorem NoReset.after_drop {m n : Nat} {s t : State} (h : NoReset (m + n) s) (ht : t.inputs = s.inputs.drop m) :
    NoReset n t := by
  intro inp hin
  rw [ht, List.take_drop] at hin
  exact h inp (List.mem_of_mem_drop hin)

/-- The command in flight opens nothing and raises nothing (R24, R25). -/
theorem microSteps_opened_faultHw (n : Nat) (s : State) :
    (microSteps n s).opened = s.opened ∧ (microSteps n s).faultHw = s.faultHw := by
  induction n generalizing s with
  | zero => exact ⟨rfl, rfl⟩
  | succ n ih =>
    obtain ⟨ho, hf, -⟩ := microStep_frame s
    exact ⟨(ih _).1.trans ho, (ih _).2.trans hf⟩

/-- Without `rst`, the command in flight runs to `READY` and leaves `opened` and `fault_hw` as they were (R28(c)). -/
theorem run_to_ready {s : State} (hr : NoReset s.seq.remaining s) :
    ∃ t, run s.seq.remaining s = .next t ∧ t.seq = .ready ∧ t.opened = s.opened ∧ t.faultHw = s.faultHw ∧
      t.inputs = s.inputs.drop s.seq.remaining := by
  obtain ⟨ho, hf⟩ := microSteps_opened_faultHw s.seq.remaining s
  have hrem : (microSteps s.seq.remaining s).seq.remaining = 0 := (microSteps_remaining le_rfl).trans (Nat.sub_self _)
  exact ⟨_, run_eq_microSteps le_rfl hr, Seq.remaining_eq_zero hrem, ho, hf, rfl⟩

/-- In `READY`, a `MOTOR_STOP` that is presented and accepted is over six steps later (R192). -/
theorem run_presented_stop {s : State} {rest : List HostInput} (ha : acceptsCommand s = true)
    (hin : s.inputs = ⟨false, some 0xA⟩ :: rest) (hr : NoReset 6 s) :
    run 6 s = .next { stopResult s with inputs := rest.drop 5 } := by
  obtain ⟨hs, -, -⟩ := (acceptsCommand_iff s).1 ha
  have haccept : step s = .next { s with inputs := rest, seq := .stop .m1 } := by
    rw [step_command hs hin]
    exact exec_motorStop_of_accepts (by exact ha)
  rw [run_succ 5 haccept, run_stop rfl (noReset_tail hr (by simp [hin]))]
  rfl

/-- What is held for the next `n` steps still stands first after fewer of them. -/
theorem drop_of_held {α : Type} {l : List α} {a : α} {m n : Nat} (h : ∀ x ∈ l.take n, x = a) (hm : m < n)
    (hn : n ≤ l.length) : l.drop m = a :: l.drop (m + 1) := by
  have hlt : m < l.length := hm.trans_le hn
  have hmem : l[m] ∈ l.take n := List.mem_take_iff_getElem.2 ⟨m, by omega, rfl⟩
  rw [List.drop_eq_getElem_cons hlt, h _ hmem]

/-- An opened machine that meets the invariant is without a fault (R24, R210). -/
theorem State.Inv.noFault_of_opened {s : State} (hi : s.Inv) (ho : s.opened = true) : s.faultHw = false :=
  (hi.serving ho (cmds := []) (by simp)).noFault

theorem stopResult_men (s : State) (c : Channel) : (stopResult s).men c = .low := by
  cases c <;> rfl

end Sys2Proof.Machine

/-! PROOFS. The statements of the family 43_control_commands. -/

namespace Sys2Proof.Machine

/-- Settles O10: the acceptance leads to `INIT(0)`, and from there the eight micro-steps are the eight writes. -/
theorem initRunsToItsEnd : Obligations.InitRunsToItsEnd := by
  intro s hs hf hg hr
  have haccept : acceptsInit s = true := (acceptsInit_iff s).2 ⟨hs, hf⟩
  exact ⟨_, exec_init_of_accepts haccept hg, rfl, run_init rfl rfl hr⟩

/-- Settles O13: the acceptance leads to `STOP(1)`, and from there the five micro-steps are four enable writes and the
shield. -/
theorem motorStopRunsToItsEnd : Obligations.MotorStopRunsToItsEnd := by
  intro s hs hf ho hr
  have haccept : acceptsCommand s = true := (acceptsCommand_iff s).2 ⟨hs, hf, ho⟩
  exact ⟨_, exec_motorStop_of_accepts haccept, rfl, run_stop rfl hr⟩

/-- Settles O59: the command in flight takes at most 40 steps to `READY`, the held word is accepted in the next one, and five
more end the stop. -/
theorem heldStopStopsTheMotors : Obligations.HeldStopStopsTheMotors := by
  intro s hi ho hheld hlen
  have hrem := s.seq.remaining_le
  have hr : NoReset 46 s := fun inp hin => by rw [hheld inp hin]
  obtain ⟨u, hrun, hready, hopened, hfault, hin⟩ := run_to_ready (hr.mono (by omega))
  have haccept : acceptsCommand u = true :=
    (acceptsCommand_iff u).2 ⟨hready, hfault.trans (hi.noFault_of_opened ho), hopened.trans ho⟩
  have hstop := run_presented_stop haccept (hin.trans (drop_of_held hheld (by omega) hlen))
    ((hr.mono (by omega)).after_drop hin)
  have hlow := stopResult_men u
  exact ⟨s.seq.remaining + 6, _, by omega, (run_add hrun).trans hstop, rfl, rfl, (State.menAll_iff_men _ _).2 hlow, rfl,
    fun c => State.motorCondition_of_low (hlow c)⟩

/-- Settles O14: the acceptance leads to `SHIELD(on)`, which is one micro-step. -/
theorem setMotorShieldRunsToItsEnd : Obligations.SetMotorShieldRunsToItsEnd := by
  intro on s hs hf ho hr
  have haccept : acceptsCommand s = true := (acceptsCommand_iff s).2 ⟨hs, hf, ho⟩
  exact ⟨_, exec_setMotorShield_of_accepts on haccept, rfl, run_shield rfl hr⟩

/-- Settles O21: each write is to `Low`, which the device ignores. -/
theorem initStepsDriveLow : Obligations.InitStepsDriveLow := by
  intro s k hr hs
  rw [step_at hr hs (by simp), action_init, lineWrite_low]
  rfl

/-- Settles O29: the device ignores `REG_EN_n`, and `enabled` is written in the same step. -/
theorem shieldStepWritesLineAndFlag : Obligations.ShieldStepWritesLineAndFlag := by
  intro s on hr hs
  rw [step_at hr hs (by simp), action_shield, lineWrite_of_no_edge (.inl (by decide)) (.inl (by decide))]
  rfl

end Sys2Proof.Machine

/-! SUPPORT. What is not accepted, the exception, the machine once the fault is raised, and the machine without a GPIO
controller (R210 to R217). -/

namespace Sys2Proof.Machine

/-! The acceptance (R213) -/

/-- Of everything a presentation can do, only "nothing" is left where the instruction is not accepted (R216). -/
theorem exec_of_not_accepted {i : Instr} {s : State} (hi : i = .init → acceptsInit s ≠ true)
    (hc : acceptsCommand s ≠ true) : exec i s = .next s := by
  obtain ⟨t, h⟩ := exec_answers i s
  rcases exec_next_cases h with rfl | ⟨he, ha, -⟩ | ⟨he, ha, -⟩ | ⟨ha, -⟩ | ⟨ha, -⟩ | ⟨ha, -⟩
  · exact h
  · exact absurd ha (hi he)
  · exact absurd ha (hi he)
  · exact absurd ha hc
  · exact absurd ha hc
  · exact absurd ha hc

theorem exec_of_busy {s : State} (hs : s.seq ≠ .ready) (i : Instr) : exec i s = .next s :=
  exec_of_not_accepted (fun _ => by simp [acceptsInit_iff, hs]) (by simp [acceptsCommand_iff, hs])

theorem exec_of_fault {s : State} (hf : s.faultHw = true) (i : Instr) : exec i s = .next s :=
  exec_of_not_accepted (fun _ => by simp [acceptsInit_iff, hf]) (by simp [acceptsCommand_iff, hf])

theorem exec_of_unopened {i : Instr} {s : State} (hi : i ≠ .init) (ho : s.opened = false) : exec i s = .next s :=
  exec_of_not_accepted (fun he => absurd he hi) (by simp [acceptsCommand_iff, ho])

/-! The exception (R210, R215) -/

theorem exec_init_of_no_controller {s : State} (h : acceptsInit s = true) (hg : s.cfg.gpioPresent = false) :
    exec .init s = .next (raiseHardwareUnavailable s) := by
  rw [exec, execInit, if_pos h, hg]
  rfl

/-- A presentation leaves `fault_hw` alone or takes the exception. -/
theorem exec_faultHw {i : Instr} {s t : State} (h : exec i s = .next t) :
    t.faultHw = s.faultHw ∨ (i = .init ∧ s.cfg.gpioPresent = false ∧ t = raiseHardwareUnavailable s) := by
  rcases exec_next_cases h with
    rfl | ⟨hi, -, hg, rfl⟩ | ⟨-, -, -, rfl⟩ | ⟨-, d, rfl⟩ | ⟨-, -, rfl⟩ | ⟨-, on, -, rfl⟩
  · exact .inl rfl
  · exact .inr ⟨hi, hg, rfl⟩
  · exact .inl rfl
  · exact .inl rfl
  · exact .inl rfl
  · exact .inl rfl

/-- Without `rst` a step leaves `fault_hw` alone or takes the exception. -/
theorem step_faultHw {s t : State} (hr : NoResetNow s) (h : step s = .next t) :
    t.faultHw = s.faultHw ∨
      (s.seq = .ready ∧ s.cfg.gpioPresent = false ∧ (∃ w, (presented s).cmd = some w ∧ decode w = .init) ∧
        t = raiseHardwareUnavailable (popInput s)) := by
  rcases step_cases h with ⟨hr', -⟩ | ⟨-, -, rfl⟩ | ⟨-, -, rfl⟩ | ⟨-, hs, w, hw, hx⟩
  · exact absurd hr' (Bool.eq_false_iff.1 hr)
  · obtain ⟨-, hf, -⟩ := microStep_frame (popInput s)
    exact .inl hf
  · exact .inl rfl
  · exact (exec_faultHw hx).imp_right fun ⟨hi, hg, ht⟩ => ⟨hs, hg, ⟨w, hw, hi⟩, ht⟩

/-! After the fault (R217) -/

/-- With the fault set, a step without `rst` that is taken in `READY` only takes an input off the list. -/
theorem step_of_fault {s : State} (hs : s.seq = .ready) (hf : s.faultHw = true) (hr : NoResetNow s) :
    step s = .next (popInput s) := by
  obtain ⟨t, h⟩ := step_answers s
  rcases step_cases h with ⟨hr', -⟩ | ⟨-, hs', -⟩ | ⟨-, -, rfl⟩ | ⟨-, -, w, -, hx⟩
  · exact absurd hr' (Bool.eq_false_iff.1 hr)
  · exact absurd hs hs'
  · exact h
  · exact h.trans (hx.symm.trans (exec_of_fault (s := popInput s) hf _))

theorem run_of_fault {n : Nat} {s : State} (hs : s.seq = .ready) (hf : s.faultHw = true) (hr : NoReset n s) :
    run n s = .next { s with inputs := s.inputs.drop n } := by
  induction n generalizing s with
  | zero => rfl
  | succ n ih =>
    rw [run_succ n (step_of_fault hs hf (noReset_now hr)), ih (s := popInput s) hs hf (noReset_tail hr rfl)]
    simp [popInput]

/-! Without a GPIO controller (R190, R217) -/

theorem State.Inv.unopened_of_no_controller {s : State} (h : s.Inv) (hg : s.cfg.gpioPresent = false) :
    s.opened = false :=
  Bool.eq_false_iff.2 fun ho => by simp [h.openedPresent ho] at hg

theorem State.Inv.ready_of_no_controller {s : State} (h : s.Inv) (hg : s.cfg.gpioPresent = false) : s.seq = .ready :=
  by_contra fun hs => by simpa [h.unopened_of_no_controller hg] using h.busyOpened hs

/-- The machine `u` has no controller, and its target device still holds what it holds in `s`. -/
structure State.UndrivenSince (s u : State) : Prop where
  inv : u.Inv
  noController : u.cfg.gpioPresent = false
  stages : u.devS = s.devS
  outputs : u.devQ = s.devQ

/-- No step leaves `READY`, and in `READY` the device sees no edge. -/
theorem State.UndrivenSince.after_step {s u v : State} (h : s.UndrivenSince u) (hx : step u = .next v) :
    s.UndrivenSince v := by
  have hready : u.seq = .ready := h.inv.ready_of_no_controller h.noController
  obtain ⟨hQ, hS⟩ := deviceMovesOnlyOnItsEdges u v hx
  exact {
    inv := h.inv.after_step hx
    noController := by rw [step_cfg hx]; exact h.noController
    stages := (hS.resolve_right (by simp [hready])).trans h.stages
    outputs := (hQ.resolve_right (by simp [hready])).trans h.outputs }

end Sys2Proof.Machine

/-! PROOFS. The statements of the family 60_exceptions. -/

namespace Sys2Proof.Machine

/-- Settles O36: of what a step without `rst` can do, only the exception writes `fault_hw`. -/
theorem onlyInitRaisesTheFault : Obligations.OnlyInitRaisesTheFault := by
  intro s t h hr
  rcases step_faultHw hr h with hf | ⟨hs, hg, hw, rfl⟩
  · exact ⟨hf.trans, fun hno hyes => by simp [hf, hno] at hyes⟩
  · exact ⟨fun _ => rfl, fun _ _ => ⟨hs, hg, hw, rfl⟩⟩

/-- Settles O46: the fault means that there is no controller, so the machine is in `READY`, where no word is accepted. -/
theorem faultLastsUntilReset : Obligations.FaultLastsUntilReset := fun _ _ hi hf hr =>
  run_of_fault (hi.ready_of_no_controller (hi.faultAbsent hf)) hf hr

/-- Settles O47: the run keeps the invariant, which says that a machine that was never opened is untouched. -/
theorem noControllerNoLineMoves : Obligations.NoControllerNoLineMoves := by
  intro n s t hi hg h
  have ht : s.UndrivenSince t := run_keeps (fun _ _ hu hx => hu.after_step hx) ⟨hi, hg, rfl, rfl⟩ h
  have ho : t.opened = false := ht.inv.unopened_of_no_controller ht.noController
  obtain ⟨hlines, -, -, htrace⟩ := ht.inv.untouched ho
  exact ⟨hlines, htrace, ho, ht.stages, ht.outputs⟩

/-- Settles O11: the acceptance of `INIT` without a controller is the exception, which sets `fault_hw`. -/
theorem initWithoutControllerFaults : Obligations.InitWithoutControllerFaults := fun s hs hf hg =>
  ⟨exec_init_of_no_controller ((acceptsInit_iff s).2 ⟨hs, hf⟩) hg, rfl⟩

/-- Settles O16: in each of the three cases a check of the acceptance fails. -/
theorem notAcceptedHasNoEffect : Obligations.NotAcceptedHasNoEffect := by
  rintro i s (hs | hf | ⟨hi, ho⟩)
  · exact exec_of_busy hs i
  · exact exec_of_fault hf i
  · exact exec_of_unopened hi ho

end Sys2Proof.Machine

/-! SUPPORT. The step with `rst` asserted, and the cycles of the clocked rendering, part by part (R240, R253). -/

namespace Sys2Proof.Machine

/-! The reset step (R213 (1), R240) -/

/-- With `rst` asserted a step is the reset, whatever else is presented and whatever is in flight. -/
theorem step_of_reset {s : State} (hr : (presented s).rst = true) : step s = .next (resetEvent (popInput s)) := by
  rw [step, (stepCase_reset_iff s).2 hr]

/-! The cycles (R253) -/

/-- A bit cell is three micro-steps of one cycle and the settle delay. -/
theorem Seq.cyclesOf_bitCell (T n : Nat) (i : Fin 8) :
    Seq.cyclesOf T (n + 4) (.rwData i) = 3 + T + Seq.cyclesOf T n (Seq.rwClkLo i).successor := by
  have hcell : Seq.cyclesOf T (n + 4) (.rwData i) =
      1 + (1 + (T + (1 + Seq.cyclesOf T n (Seq.rwClkLo i).successor))) := rfl
  omega

/-- The bit cells from cell `i` to the last one, counted back from the last. -/
theorem Seq.cyclesOf_bitCells (T n : Nat) (i : Fin 8) :
    Seq.cyclesOf T (n + 4 * (8 - i.val)) (.rwData i) = (8 - i.val) * (3 + T) + Seq.cyclesOf T n .rwLatchHi := by
  induction i using Fin.reverseInduction with
  | last => exact (Seq.cyclesOf_bitCell T n (Fin.last 7)).trans (by simp [Seq.successor])
  | cast i ih =>
    have hnext : (Seq.rwClkLo i.castSucc).successor = .rwData i.succ := by
      rw [Seq.successor_rwClkLo, if_pos (show i.castSucc.val < 7 from i.isLt), Fin.coeSucc_eq_succ]
    have hleft : 8 - i.castSucc.val = 8 - i.succ.val + 1 := by simp only [Fin.val_castSucc, Fin.val_succ]; omega
    rw [hleft, Nat.mul_succ, ← Nat.add_assoc, Seq.cyclesOf_bitCell, hnext, ih, Nat.succ_mul]
    omega

/-- A frame is the fall of `LATCH`, eight bit cells and the rise of `LATCH`. -/
theorem Seq.cyclesOf_frame (T n : Nat) :
    Seq.cyclesOf T (n + 34) .rwLatchLo = 26 + 8 * T + Seq.cyclesOf T n .rwRecord := by
  have hlow : Seq.cyclesOf T (n + 34) .rwLatchLo = 1 + Seq.cyclesOf T (n + 1 + 4 * 8) (.rwData 0) := rfl
  have hcells := Seq.cyclesOf_bitCells T (n + 1) 0
  have hhigh : Seq.cyclesOf T (n + 1) .rwLatchHi = 1 + Seq.cyclesOf T n .rwRecord := rfl
  simp only [Fin.val_zero, Nat.sub_zero] at hcells
  omega

/-- A directional command is four enable writes, a frame, the record and the shield. -/
theorem Seq.cyclesOf_direction (T : Nat) : Seq.cyclesOf T 40 (.arm .m1) = 32 + 8 * T := by
  have harm : Seq.cyclesOf T 40 (.arm .m1) = 1 + (1 + (1 + (1 + Seq.cyclesOf T (2 + 34) .rwLatchLo))) := rfl
  have htail : Seq.cyclesOf T 2 .rwRecord = 2 := rfl
  rw [harm, Seq.cyclesOf_frame, htail]
  omega

end Sys2Proof.Machine

/-! PROOFS. The statements of the family 70_reset_and_hazards. -/

namespace Sys2Proof.Machine

/-- Settles O7: the step is the reset, and the fields after it are read off. -/
theorem resetWinsOverEverything : Obligations.ResetWinsOverEverything := fun _ hr =>
  ⟨_, step_of_reset hr, rfl, rfl, rfl, rfl, rfl, rfl, rfl, rfl, rfl, rfl, rfl⟩

/-- Settles O32: only a frame has settle delays, and the other commands last one cycle for each micro-step. -/
theorem cycleCountsAsTabled : Obligations.CycleCountsAsTabled := fun T =>
  ⟨Seq.cyclesOf_frame T 0, Seq.cyclesOf_direction T, rfl, rfl, fun _ => rfl⟩

/-- Settles O55: the reset leaves all lines low, so no channel is powered and `REG_EN_n` lets `Q` through. -/
theorem motorsOffAfterReset : Obligations.MotorsOffAfterReset := by
  intro s t hr h
  rw [step_of_reset hr] at h
  cases h
  have hlow : ∀ c, (resetEvent (popInput s)).men c = .low := State.men_allLow rfl
  exact ⟨fun c => State.motorCondition_of_low (hlow c), if_pos rfl, (State.view_idle_iff _).2 ⟨rfl, rfl, hlow⟩⟩

end Sys2Proof.Machine
